-- ==== Sys2Proof/Word.lean ====
section
/-! DEFINITION. The word types of the Evael X4 and their plainest readings. -/

namespace Sys2Proof

/-- A byte of memory (R9: memory data are little-endian). -/
abbrev Byte := BitVec 8

/-- An instruction word (R20). -/
abbrev W32 := BitVec 32

/-- A scalar register, a control register, a long form (R23, R97). -/
abbrev W64 := BitVec 64

/-- A register-number field of a word or a long form (R22, R23). -/
abbrev Field := BitVec 7

end Sys2Proof
end

