-- ==== Sys2Proof/Config.lean ====
section
/-! DEFINITION. What an implementation fixes and the spec leaves open, and the free values (log entry 5).

A free value has no body, so nothing can be proved of what it is. The state's `freeCtr` numbers the free values of one
run, so that two of them need not agree. -/

namespace Sys2Proof

/-- The free value with the given number (log entry 5). -/
opaque Config.freeValue : Nat → BitVec 64

/-- Which of the orders of its 64 physical lanes a core gives them out in, as a number (R272, R341; log entry 21). -/
opaque Config.laneOrder : Nat → Nat

/-- The secret part of the device identity key, 32 bytes (R3, R322; log entry 20). -/
opaque Config.identitySecret : Nat → Byte

/-- The key of flash's tags that follows from the fuse secret (R3; log entry 3). -/
opaque Config.flashKey : List Byte → List Byte

/-- Which 8 GiB of a partition's lowest die the retry buffers of its long-haul ports take, 512 MiB for each port, as a number
(R292; log entry 28). -/
opaque Config.retryArea : Nat → Nat

/-- The byte at an index of an area of a save frame whose inner layout the spec leaves open, for a number and what the area
holds (R339, R340; log entry 19). -/
opaque Config.frameByte : Nat → List Byte → Nat → Byte

end Sys2Proof
end

