-- ==== Sys2Proof/Machine/Bits.lean ====
section
/-! DEFINITION. Bit strings and little-endian byte strings as natural numbers (R9, R48). -/

namespace Sys2Proof.Machine

/-- Bits `[lo + n - 1 : lo]` of a number. -/
def bitsAt (x lo n : Nat) : Nat := (x >>> lo) % 2 ^ n

/-- `x` with bits `[lo + n - 1 : lo]` replaced by the low `n` bits of `v`. -/
def setBitsAt (x lo n v : Nat) : Nat :=
  x - bitsAt x lo n * 2 ^ lo + v % 2 ^ n * 2 ^ lo

/-- The two's complement reading of the low `n` bits. -/
def signedOf (n x : Nat) : Int :=
  if x % 2 ^ n < 2 ^ (n - 1) then (x % 2 ^ n : Nat) else ((x % 2 ^ n : Nat) : Int) - (2 ^ n : Nat)

/-- The low `n` bits of an integer (R19). -/
def wrapTo (n : Nat) (x : Int) : Nat := (x % ((2 ^ n : Nat) : Int)).toNat

/-- The integer held to the range of a signed or unsigned `n`-bit type. -/
def clampTo (lo hi x : Int) : Int := if x < lo then lo else if hi < x then hi else x

/-- The number whose little-endian bytes are given. -/
def leValue : List Byte → Nat
  | [] => 0
  | b :: bs => b.toNat + 256 * leValue bs

/-- The low `n` bytes of a number, least significant first. -/
def leBytes : Nat → Nat → List Byte
  | 0, _ => []
  | n + 1, x => BitVec.ofNat 8 x :: leBytes n (x / 256)

/-- The elements `0 .. n - 1` of width `w` of a packed bit stream. -/
def unpack (w n x : Nat) : List Nat := (List.range n).map (fun i => bitsAt x (w * i) w)

/-- The packed bit stream of a list of elements of width `w` (R48). -/
def pack (w : Nat) : List Nat → Nat
  | [] => 0
  | e :: es => e % 2 ^ w + 2 ^ w * pack w es

/-- The least multiple of `n` at or above `x`. -/
def roundUp (x n : Nat) : Nat := if n = 0 then x else (x + n - 1) / n * n

/-- The quotient rounded up. -/
def ceilDiv (x n : Nat) : Nat := if n = 0 then 0 else (x + n - 1) / n

/-- `x` is a multiple of `n`. -/
def aligned (x n : Nat) : Bool := x % n == 0

/-- Replace element `i` of a list; the list is unchanged where there is no such element. -/
def setNth {α : Type} : List α → Nat → α → List α
  | [], _, _ => []
  | _ :: xs, 0, v => v :: xs
  | x :: xs, i + 1, v => x :: setNth xs i v

/-- Number of one bits among the low `n` bits. -/
def popCount : Nat → Nat → Nat
  | 0, _ => 0
  | n + 1, x => x % 2 + popCount n (x / 2)

end Sys2Proof.Machine
end

