-- ==== Sys2Proof/Machine/Num.lean ====
section
/-! DEFINITION. The number formats (R44 to R47), exact values, and the one rounding (R59 to R67). -/

namespace Sys2Proof.Machine

/-- How a floating-point format treats its top exponent (R45). -/
inductive FloatKind where
  /-- infinities and NaNs as IEEE 754-2019 places them -/
  | ieee
  /-- FP8 E4M3: no infinity, the code S.1111.111 a NaN -/
  | e4m3
  /-- neither infinity nor NaN -/
  | finite
  deriving DecidableEq, Repr

/-- A floating-point format (R44): width, mantissa bits, bias. -/
structure FloatFmt where
  width : Nat
  mant : Nat
  bias : Nat
  kind : FloatKind
  deriving DecidableEq, Repr

def FloatFmt.fp64 : FloatFmt := { width := 64, mant := 52, bias := 1023, kind := .ieee }
def FloatFmt.fp32 : FloatFmt := { width := 32, mant := 23, bias := 127, kind := .ieee }
def FloatFmt.bf16 : FloatFmt := { width := 16, mant := 7, bias := 127, kind := .ieee }
def FloatFmt.fp16 : FloatFmt := { width := 16, mant := 10, bias := 15, kind := .ieee }
def FloatFmt.e4m3 : FloatFmt := { width := 8, mant := 3, bias := 7, kind := .e4m3 }
def FloatFmt.e5m2 : FloatFmt := { width := 8, mant := 2, bias := 15, kind := .ieee }
def FloatFmt.e2m3 : FloatFmt := { width := 6, mant := 3, bias := 1, kind := .finite }
def FloatFmt.e3m2 : FloatFmt := { width := 6, mant := 2, bias := 3, kind := .finite }
def FloatFmt.e2m1 : FloatFmt := { width := 4, mant := 1, bias := 1, kind := .finite }

/-- The width of the exponent field. -/
def FloatFmt.ebits (f : FloatFmt) : Nat := f.width - 1 - f.mant

/-- The largest value of the exponent field. -/
def FloatFmt.etop (f : FloatFmt) : Nat := 2 ^ f.ebits - 1

/-- The code of the largest finite magnitude (R44). -/
def FloatFmt.maxCode (f : FloatFmt) : Nat :=
  match f.kind with
  | .ieee => f.etop * 2 ^ f.mant - 1
  | .e4m3 => 2 ^ (f.width - 1) - 2
  | .finite => 2 ^ (f.width - 1) - 1

/-- The exponent of the binade of the largest finite magnitude. -/
def FloatFmt.emax (f : FloatFmt) : Int :=
  match f.kind with
  | .ieee => (f.etop : Int) - 1 - f.bias
  | .e4m3 => (f.etop : Int) - f.bias
  | .finite => (f.etop : Int) - f.bias

/-- The exponent of the least normal magnitude. -/
def FloatFmt.emin (f : FloatFmt) : Int := 1 - (f.bias : Int)

/-- The code of +∞, for a format that has infinities. -/
def FloatFmt.infCode (f : FloatFmt) : Nat := f.etop * 2 ^ f.mant

/-- The canonical NaN of a format; +0 for a format without NaN (R61, R67). -/
def FloatFmt.nanCode (f : FloatFmt) : Nat :=
  match f.kind with
  | .ieee => f.etop * 2 ^ f.mant + 2 ^ (f.mant - 1)
  | .e4m3 => 2 ^ (f.width - 1) - 1
  | .finite => 0

/-- The sign bit's weight. -/
def FloatFmt.signBit (f : FloatFmt) : Nat := 2 ^ (f.width - 1)

/-- An exact value. `val neg t k sticky` stands for a real whose magnitude `m` satisfies
`t * 2^k ≤ m < (t + 1) * 2^k`, equal to the lower bound exactly when `sticky` is false; `t` is not 0. -/
inductive Exact where
  | nan
  | inf (neg : Bool)
  | zero (neg : Bool)
  | val (neg : Bool) (t : Nat) (k : Int) (sticky : Bool)
  deriving DecidableEq, Repr

/-- The exact value `±t * 2^k`; a zero of the sign where `t` is 0. -/
def Exact.ofNatExp (neg : Bool) (t : Nat) (k : Int) : Exact :=
  if t = 0 then .zero neg else .val neg t k false

/-- The exact value of an integer times `2^k`. -/
def Exact.ofIntExp (x : Int) (k : Int) : Exact := .ofNatExp (decide (x < 0)) x.natAbs k

/-- The exact value of an integer. -/
def Exact.ofInt (x : Int) : Exact := .ofIntExp x 0

/-- A code's value (R44, R45). Bits above the format's width are ignored. -/
def FloatFmt.decode (f : FloatFmt) (code : Nat) : Exact :=
  let neg := bitsAt code (f.width - 1) 1 == 1
  let e := bitsAt code f.mant f.ebits
  let m := bitsAt code 0 f.mant
  let fin : Exact :=
    if e = 0 then .ofNatExp neg m (f.emin - f.mant)
    else .val neg (2 ^ f.mant + m) ((e : Int) - f.bias - f.mant) false
  match f.kind with
  | .ieee => if e = f.etop then (if m = 0 then .inf neg else .nan) else fin
  | .e4m3 => if e = f.etop ∧ m = 2 ^ f.mant - 1 then .nan else fin
  | .finite => fin

/-- A rounding mode (R60), a stochastic one with its random word (R63). -/
inductive Rnd where
  | rne | rtz | rdn | rup | rmm
  | rsr (r : Nat)
  deriving DecidableEq, Repr

def Exact.isNan : Exact → Bool
  | .nan => true
  | _ => false

def Exact.isZero : Exact → Bool
  | .zero _ => true
  | _ => false

def Exact.isInf : Exact → Bool
  | .inf _ => true
  | _ => false

/-- The sign of a value; false for a NaN. -/
def Exact.sign : Exact → Bool
  | .nan => false
  | .inf n => n
  | .zero n => n
  | .val n _ _ _ => n

def Exact.neg : Exact → Exact
  | .nan => .nan
  | .inf n => .inf (!n)
  | .zero n => .zero (!n)
  | .val n t k s => .val (!n) t k s

/-- The exponent of the binade of `t * 2^k`. -/
def binade (t : Nat) (k : Int) : Int := (t.log2 : Int) + k

/-- Whether the magnitude is rounded away from zero, between the neighbours `n` and `n + 1` units (R60, R63): `rem`
parts of `den` lie above `n`, and `sticky` adds a part less than one. Under RSR the neighbour of smaller magnitude of a
negative value is the upper one, beyond the largest finite magnitude too (log entry 44). -/
def roundsAway (neg : Bool) (n rem den : Nat) (sticky : Bool) (mode : Rnd) : Bool :=
  if rem = 0 ∧ sticky = false then false else
  match mode with
  | .rtz => false
  | .rdn => neg
  | .rup => !neg
  | .rne => decide (2 * rem > den) || (decide (2 * rem = den) && (sticky || n % 2 == 1))
  | .rmm => decide (2 * rem ≥ den)
  | .rsr r =>
    if neg then
      -- the upper neighbour is the one of smaller magnitude
      let up := if sticky then decide (r * den ≤ (den - rem - 1) * 2 ^ 32)
                else decide (r * den < (den - rem) * 2 ^ 32)
      !up
    else if sticky then decide (r * den ≤ rem * 2 ^ 32) else decide (r * den < rem * 2 ^ 32)

/-- `t * 2^k` in whole units of `2^q`, with the parts above them and the parts of a unit. -/
def unitsOf (t : Nat) (k q : Int) : Nat × Nat × Nat :=
  if k ≥ q then (t <<< (k - q).toNat, 0, 1)
  else
    let s := (q - k).toNat
    (t >>> s, t % 2 ^ s, 2 ^ s)

/-- The magnitude `n` units of `2^q` in units of the exponent and mantissa fields together. -/
def FloatFmt.fieldsOf (f : FloatFmt) (n : Nat) (q : Int) : Nat :=
  -- a normal of the binade `q + mant` holds `2^mant ≤ n < 2^(mant + 1)`; a carry into the next binade adds up
  if n < 2 ^ f.mant then n
  else ((q + f.mant + f.bias).toNat - 1) * 2 ^ f.mant + n

/-- The result when the magnitude lies above every finite magnitude's binade (R61). -/
def FloatFmt.overflow (f : FloatFmt) (neg : Bool) (mode : Rnd) : Nat :=
  match f.kind with
  | .ieee =>
    match mode with
    | .rtz => f.maxCode
    | .rdn => if neg then f.infCode else f.maxCode
    | .rup => if neg then f.maxCode else f.infCode
    | .rne | .rmm | .rsr _ => f.infCode
  | .e4m3 | .finite => f.maxCode

/-- The code that rounds an exact value (R60, R61, R67). -/
def FloatFmt.round (f : FloatFmt) (x : Exact) (mode : Rnd) : Nat :=
  let signed (neg : Bool) (c : Nat) : Nat := if neg then f.signBit + c else c
  match x with
  | .nan => f.nanCode
  | .inf neg => signed neg (match f.kind with | .ieee => f.infCode | _ => f.maxCode)
  | .zero neg => signed neg 0
  | .val neg t k sticky =>
    let e := binade t k
    if e > f.emax then signed neg (f.overflow neg mode)
    else
      let q := (if e < f.emin then f.emin else e) - f.mant
      let (n, rem, den) := unitsOf t k q
      let n' := if roundsAway neg n rem den sticky mode then n + 1 else n
      signed neg (min (f.fieldsOf n' q) (match f.kind with | .ieee => f.infCode | _ => f.maxCode))

/-- The result flush (R66): a nonzero exact value below the least normal becomes a zero of its sign. -/
def FloatFmt.flushResult (f : FloatFmt) (x : Exact) : Exact :=
  match x with
  | .val neg t k _ => if binade t k < f.emin then .zero neg else x
  | _ => x

/-- The input flush (R66). -/
def FloatFmt.flushInput (f : FloatFmt) (x : Exact) : Exact := f.flushResult x

/-- The integer nearest below and above chosen by the mode (R62); none for a NaN or an infinity. -/
def Exact.roundInt (x : Exact) (mode : Rnd) : Option Int :=
  match x with
  | .nan | .inf _ => none
  | .zero _ => some 0
  | .val neg t k sticky =>
    let (n, rem, den) := unitsOf t k 0
    let m := if roundsAway neg n rem den sticky mode then n + 1 else n
    some (if neg then -(m : Int) else m)

/-- Conversion to an integer range, saturating (R62). -/
def Exact.toIntSat (x : Exact) (lo hi : Int) (mode : Rnd) : Int :=
  match x with
  | .nan => 0
  | .inf neg => if neg then lo else hi
  | y => clampTo lo hi ((y.roundInt mode).getD 0)

/-- The sign of an exact zero sum (R60): negative under RDN. -/
def zeroSumNeg : Rnd → Bool
  | .rdn => true
  | _ => false

/-- Exact sum of two finite nonzero values, as an integer times a power of two. -/
def addVal (n1 : Bool) (t1 : Nat) (k1 : Int) (n2 : Bool) (t2 : Nat) (k2 : Int) : Int × Int :=
  let k := if k1 ≤ k2 then k1 else k2
  let a : Int := ((t1 <<< (k1 - k).toNat : Nat) : Int)
  let b : Int := ((t2 <<< (k2 - k).toNat : Nat) : Int)
  ((if n1 then -a else a) + (if n2 then -b else b), k)

/-- The exact sum (R60). Both values are exact (not sticky). -/
def Exact.add (x y : Exact) (mode : Rnd) : Exact :=
  match x, y with
  | .nan, _ => .nan
  | _, .nan => .nan
  | .inf a, .inf b => if a = b then .inf a else .nan
  | .inf a, _ => .inf a
  | _, .inf b => .inf b
  | .zero a, .zero b => if a = b then .zero a else .zero (zeroSumNeg mode)
  | .zero _, v => v
  | v, .zero _ => v
  | .val n1 t1 k1 _, .val n2 t2 k2 _ =>
    let (s, k) := addVal n1 t1 k1 n2 t2 k2
    if s = 0 then .zero (zeroSumNeg mode) else .ofIntExp s k

/-- The exact product. -/
def Exact.mul (x y : Exact) : Exact :=
  match x, y with
  | .nan, _ => .nan
  | _, .nan => .nan
  | .inf a, .zero _ => let _ := a; .nan
  | .zero _, .inf b => let _ := b; .nan
  | .inf a, v => .inf (a != v.sign)
  | v, .inf b => .inf (v.sign != b)
  | .zero a, v => .zero (a != v.sign)
  | v, .zero b => .zero (v.sign != b)
  | .val n1 t1 k1 _, .val n2 t2 k2 _ => .val (n1 != n2) (t1 * t2) (k1 + k2) false

/-- Bits kept of a quotient or a root before the sticky part: more than any format's mantissa and a random word. -/
def quotBits : Nat := 128

/-- The quotient of two magnitudes to `bits` bits, with its sticky part. -/
def divVal (neg : Bool) (t1 : Nat) (k1 : Int) (t2 : Nat) (k2 : Int) (bits : Nat) : Exact :=
  let s := bits + t2.log2 + 1 - t1.log2
  let n := t1 <<< s
  .val neg (n / t2) (k1 - k2 - s) (n % t2 != 0)

/-- The quotient (R99, R102, R110): a finite value by zero is an infinity of the product of the signs. -/
def Exact.div (x y : Exact) : Exact :=
  match x, y with
  | .nan, _ => .nan
  | _, .nan => .nan
  | .inf _, .inf _ => .nan
  | .zero _, .zero _ => .nan
  | .inf a, v => .inf (a != v.sign)
  | v, .inf b => .zero (v.sign != b)
  | .zero a, v => .zero (a != v.sign)
  | v, .zero b => .inf (v.sign != b)
  | .val n1 t1 k1 _, .val n2 t2 k2 _ => divVal (n1 != n2) t1 k1 t2 k2 quotBits

/-- Newton's iteration for the integer square root, descending from a start at or above the root. -/
def isqrtLoop : Nat → Nat → Nat → Nat
  | 0, _, x => x
  | fuel + 1, n, x =>
    let y := (x + n / x) / 2
    if y < x then isqrtLoop fuel n y else x

/-- The integer square root, rounded down. -/
def isqrt (n : Nat) : Nat := if n = 0 then 0 else isqrtLoop (n.log2 + 8) n (2 ^ (n.log2 / 2 + 1))

/-- The root of a magnitude, to more than `bits` bits, with its sticky part. -/
def sqrtVal (t : Nat) (k : Int) (bits : Nat) : Exact :=
  let s0 := 2 * bits + 2 - t.log2
  -- the shifted exponent is even
  let s := if (k - s0) % 2 = 0 then s0 else s0 + 1
  let n := t <<< s
  let r := isqrt n
  .val false r ((k - s) / 2) (r * r != n)

/-- The square root: a negative nonzero operand gives NaN, a zero is returned with its sign. -/
def Exact.sqrt (x : Exact) : Exact :=
  match x with
  | .nan => .nan
  | .inf n => if n then .nan else .inf false
  | .zero n => .zero n
  | .val n t k _ => if n then .nan else sqrtVal t k quotBits

/-- Magnitudes of two exact values compared: -1, 0 or 1. -/
def cmpMag (t1 : Nat) (k1 : Int) (t2 : Nat) (k2 : Int) : Int :=
  let k := if k1 ≤ k2 then k1 else k2
  let a := t1 <<< (k1 - k).toNat
  let b := t2 <<< (k2 - k).toNat
  if a < b then -1 else if a = b then 0 else 1

/-- Comparison of two exact values, zeros equal whatever their signs; none when one is a NaN. -/
def Exact.cmp (x y : Exact) : Option Int :=
  match x, y with
  | .nan, _ => none
  | _, .nan => none
  | .inf a, .inf b => some (if a = b then 0 else if a then -1 else 1)
  | .inf a, _ => some (if a then -1 else 1)
  | _, .inf b => some (if b then 1 else -1)
  | .zero _, .zero _ => some 0
  | .zero _, .val n _ _ _ => some (if n then 1 else -1)
  | .val n _ _ _, .zero _ => some (if n then -1 else 1)
  | .val n1 t1 k1 _, .val n2 t2 k2 _ =>
    if n1 ≠ n2 then some (if n1 then -1 else 1)
    else some (if n1 then -(cmpMag t1 k1 t2 k2) else cmpMag t1 k1 t2 k2)

/-- Reduce the trailing zeros of an exact value, so that long sums stay short. -/
def Exact.abs : Exact → Exact
  | .nan => .nan
  | .inf _ => .inf false
  | .zero _ => .zero false
  | .val _ t k s => .val false t k s

/-- The value of an E8M0 scale code (R47); none for the NaN code. -/
def e8m0Exp (x : Nat) : Option Int := if x = 255 then none else some ((x : Int) - 127)

/-- A value scaled by a power of two. -/
def Exact.scale (x : Exact) (e : Int) : Exact :=
  match x with
  | .val n t k s => .val n t (k + e) s
  | y => y

/-- The element types by their codes (R27, R44, R46). -/
inductive ElemTy where
  | f64 | f32 | bf16 | f16 | e4m3 | e5m2 | e2m3 | e3m2 | e2m1
  | i4 | i8 | i16 | i32 | i64
  | un4 | un8 | un16 | un32 | un64
  deriving DecidableEq, Repr

/-- The type of an element-type code (R27). -/
def ElemTy.ofCode : Nat → Option ElemTy
  | 1 => some .f64 | 2 => some .f32 | 3 => some .bf16 | 4 => some .f16 | 5 => some .e4m3
  | 6 => some .e5m2 | 7 => some .e2m3 | 8 => some .e3m2 | 9 => some .e2m1
  | 10 => some .i4 | 11 => some .i8 | 12 => some .i16 | 13 => some .i32 | 14 => some .i64
  | 15 => some .un4 | 16 => some .un8 | 17 => some .un16 | 18 => some .un32 | 19 => some .un64
  | _ => none

/-- The code of a type (R27). -/
def ElemTy.code : ElemTy → Nat
  | .f64 => 1 | .f32 => 2 | .bf16 => 3 | .f16 => 4 | .e4m3 => 5
  | .e5m2 => 6 | .e2m3 => 7 | .e3m2 => 8 | .e2m1 => 9
  | .i4 => 10 | .i8 => 11 | .i16 => 12 | .i32 => 13 | .i64 => 14
  | .un4 => 15 | .un8 => 16 | .un16 => 17 | .un32 => 18 | .un64 => 19

/-- The width of an element in bits (R44, R46). -/
def ElemTy.width : ElemTy → Nat
  | .f64 => 64 | .f32 => 32 | .bf16 => 16 | .f16 => 16 | .e4m3 => 8
  | .e5m2 => 8 | .e2m3 => 6 | .e3m2 => 6 | .e2m1 => 4
  | .i4 => 4 | .i8 => 8 | .i16 => 16 | .i32 => 32 | .i64 => 64
  | .un4 => 4 | .un8 => 8 | .un16 => 16 | .un32 => 32 | .un64 => 64

/-- The format of a floating-point type; none for an integer type. -/
def ElemTy.fmt : ElemTy → Option FloatFmt
  | .f64 => some .fp64 | .f32 => some .fp32 | .bf16 => some .bf16 | .f16 => some .fp16
  | .e4m3 => some .e4m3 | .e5m2 => some .e5m2 | .e2m3 => some .e2m3 | .e3m2 => some .e3m2
  | .e2m1 => some .e2m1
  | _ => none

/-- A signed integer type. -/
def ElemTy.signed : ElemTy → Bool
  | .i4 | .i8 | .i16 | .i32 | .i64 => true
  | _ => false

def ElemTy.isFloat (t : ElemTy) : Bool := t.fmt.isSome

/-- The least value of an integer type (R46). -/
def ElemTy.intLo (t : ElemTy) : Int := if t.signed then -((2 ^ (t.width - 1) : Nat) : Int) else 0

/-- The greatest value of an integer type (R46). -/
def ElemTy.intHi (t : ElemTy) : Int :=
  if t.signed then ((2 ^ (t.width - 1) : Nat) : Int) - 1 else ((2 ^ t.width : Nat) : Int) - 1

/-- The integer that a code of an integer type holds. -/
def ElemTy.intOf (t : ElemTy) (c : Nat) : Int :=
  if t.signed then signedOf t.width c else ((c % 2 ^ t.width : Nat) : Int)

/-- The exact value of an element, integer or floating. -/
def ElemTy.exact (t : ElemTy) (c : Nat) : Exact :=
  match t.fmt with
  | some f => f.decode c
  | none => .ofInt (t.intOf c)

/-- Types on which the flush control acts (R66). -/
def ElemTy.flushes : ElemTy → Bool
  | .f64 | .f32 | .bf16 | .f16 => true
  | _ => false

/-- A finite sum kept as an integer times a power of two. -/
def addScaled (x y : Int × Int) : Int × Int :=
  if x.1 = 0 then y else if y.1 = 0 then x
  else
    let k := if x.2 ≤ y.2 then x.2 else y.2
    (x.1 * ((2 ^ (x.2 - k).toNat : Nat) : Int) + y.1 * ((2 ^ (y.2 - k).toNat : Nat) : Int), k)

/-- A finite exact value as an integer times a power of two. -/
def Exact.scaled : Exact → Int × Int
  | .val n t k _ => (if n then -(t : Int) else (t : Int), k)
  | _ => (0, 0)

/-- The exact sum of the products of one block (R71, cases 2 to 4 and 6): −0 only when every product is −0. -/
def blockSum (xs : List Exact) : Exact :=
  let pinf := xs.any (fun x => x.isInf && !x.sign)
  let ninf := xs.any (fun x => x.isInf && x.sign)
  if xs.any Exact.isNan || (pinf && ninf) then .nan
  else if pinf then .inf false
  else if ninf then .inf true
  else
    let s := xs.foldl (fun acc x => addScaled acc x.scaled) (0, 0)
    if s.1 = 0 then .zero (!xs.isEmpty && xs.all (fun x => x.isZero && x.sign)) else .ofIntExp s.1 s.2

/-- One round of Philox4x32 (R64). -/
def philoxRound (k0 k1 : Nat) (c : Nat × Nat × Nat × Nat) : Nat × Nat × Nat × Nat :=
  let h0 := 0xD2511F53 * c.1
  let h1 := 0xCD9E8D57 * c.2.2.1
  (Nat.xor (Nat.xor (bitsAt h1 32 32) c.2.1) k0, bitsAt h1 0 32,
    Nat.xor (Nat.xor (bitsAt h0 32 32) c.2.2.2) k1, bitsAt h0 0 32)

/-- The rounds that are left, each with its key. -/
def philoxLoop : Nat → Nat → Nat → Nat × Nat × Nat × Nat → Nat × Nat × Nat × Nat
  | 0, _, _, c => c
  | n + 1, k0, k1, c =>
    philoxLoop n ((k0 + 0x9E3779B9) % 2 ^ 32) ((k1 + 0xBB67AE85) % 2 ^ 32) (philoxRound k0 k1 c)

/-- Output word `j` of Philox4x32-10 (R64). -/
def philox (seed : Nat) (c0 c1 c2 c3 j : Nat) : Nat :=
  let r := philoxLoop 10 (bitsAt seed 0 32) (bitsAt seed 32 32) (c0, c1, c2, c3)
  match j % 4 with
  | 0 => r.1
  | 1 => r.2.1
  | 2 => r.2.2.1
  | _ => r.2.2.2

end Sys2Proof.Machine
end

