-- ==== Sys2Proof/Syntax.lean ====
section
/-! DEFINITION. The instructions of the Evael X4, one constructor per row of the opcode table.

Every instruction a thread executes is a 64-bit long form (R23): a native word stands for the long form that R29
gives, and a dictionary word for a filled template (R25). The operands of an instruction are therefore the fields
of its long form. The rows of the table that have no encoding are events: steps of the engines, of Hornbeam, of
Shawm, of the application die and of the package; a constructor carries the data that the event brings. -/

namespace Sys2Proof

/-- The operand fields of a long form (R23), the opcode and the reserved bits apart. -/
structure Form where
  /-- [55:49] destination, or the first operand -/
  d : Field := 0
  /-- [48:42] first source -/
  a : Field := 0
  /-- [41:35] second source, or the high part of a 14-bit immediate -/
  b : Field := 0
  /-- [34:28] third source, or the low part of a 14-bit immediate -/
  c : Field := 0
  /-- [27:24] ordering class -/
  cls : BitVec 4 := 0
  /-- [23:17] predicate -/
  pred : Field := 0
  /-- [16] the predicate is used inverted -/
  pinv : Bool := false
  /-- [15:11] format override -/
  fmt : BitVec 5 := 0
  /-- [10:6] modifier -/
  mod : BitVec 5 := 0
  /-- [5] the operand fields form an immediate -/
  imm : Bool := false
  deriving DecidableEq, Repr

/-- A thread context: its unit and its slot in the unit, 0 to 7 for vector threads, 8 for the MCC thread (R202). -/
structure Tid where
  uid : Nat
  slot : Nat
  deriving DecidableEq, Repr

/-- An `xsend` packet (R286): the record as read, the job, the sender's rank and the depth of the new launch. -/
structure Packet where
  job : Nat
  src : Nat
  depth : Nat
  bytes : List Byte
  deriving DecidableEq, Repr

/-- What one device reports to a termination round (R304): its rank, whether a job-level `join` waits on it, its local
outstanding count for all the job's launches and for those below each phase asked about, and its SENT and RECV vectors as
(rank, count) pairs. -/
structure RankCount where
  rank : Nat
  joins : Bool
  count : Nat
  phases : List (Nat × Nat)
  sent : List (Nat × Nat)
  recv : List (Nat × Nat)
  deriving DecidableEq, Repr

/-- A remote member's descriptor for one collective (R301, R302). -/
structure RemoteDesc where
  member : Nat
  desc : List Byte
  deriving DecidableEq, Repr

/-- A remote member's source bytes for one chunk, and its tier-2 residual bytes where it holds one (R300, R301). -/
structure RemoteData where
  member : Nat
  src : List Byte
  resid : List Byte
  deriving DecidableEq, Repr

/-- One member of a collective group, with its coordinates (R298). -/
structure Member where
  campus : Nat
  rack : Nat
  rank : Nat
  die : Nat
  deriving DecidableEq, Repr

/-- The members of a collective group, this device's own rank in its job, and the devices that hold the job's other ranks,
each as its rank and the device (R294, R298). -/
structure Group where
  own : Nat
  members : List Member
  devices : List (Nat × Nat)
  deriving DecidableEq, Repr

/-- A session of a port: the public value of its key exchange, which the report carries as its nonce (R293, R321). -/
structure Session where
  port : Nat
  pub : List Byte
  deriving DecidableEq, Repr

/-- Where data of a port go: the port and the first address (R344, R355). -/
structure Inbound where
  port : Nat
  pa : Nat
  deriving DecidableEq, Repr

/-- A configuration of the dies, and the partition that each Isapel port is given (R317, R319). -/
structure Division where
  config : Nat
  ports : List Nat
  deriving DecidableEq, Repr

/-- A flit at a port (R292, R293, R344): its sequence number, whether its GCM tag checks, whether its data are marked
poisoned, and its bytes. `via` names the failed port whose retry window a flit was moved from, and whose numbers it keeps
(R295; log entry 28). -/
structure Flit where
  seq : Nat
  via : Option Nat
  tagOk : Bool
  poisoned : Bool
  bytes : List Byte
  deriving DecidableEq, Repr

/-- A flit of a port's retry window: the port, the port whose numbers it has, and its number (R292, R295). -/
structure FlitName where
  port : Nat
  via : Nat
  seq : Nat
  deriving DecidableEq, Repr

/-- An acknowledgement of the peer at a port: the flits that it names, each by the port whose numbers it has and its number
(R292). -/
structure FlitAck where
  port : Nat
  flits : List (Nat × Nat)
  deriving DecidableEq, Repr

/-- What the stages of bring-up find and decide beside what fuses and flash hold (R353): whether the application-die firmware
starts (2), every compute die comes out of reset and takes its firmware (3), and the DRAM and SRAM dies train (4); the lanes,
as (core, lane), and the frames that fail where stage 4 tests each of them; whether stages 5 and 6 succeed, where the firmware
places each partition's journal (PA[51:22]), and the die whose partition each Isapel port belongs to. -/
structure BootInput where
  appFwOk : Bool
  diesOk : Bool
  dramOk : Bool
  badLanes : List (Nat × Nat)
  badFrames : List Nat
  placedOk : Bool
  ranistamOk : Bool
  jrnBase : List Nat
  ports : List Nat
  deriving DecidableEq, Repr

/-- One constructor per row of the opcode table. -/
inductive Instr where
  /-- Undefined opcode 0x00; always raises Illegal instruction (R108). -/
  | udf (x : BitVec 23)
  /-- Integer add of two scalar registers, wrapping (R98). -/
  | add (f : Form)
  /-- Integer subtract, wrapping (R98). -/
  | sub (f : Form)
  /-- Bitwise and of two scalar registers (R98). -/
  | and (f : Form)
  /-- Bitwise or of two scalar registers (R98). -/
  | or (f : Form)
  /-- Bitwise exclusive or of two scalar registers (R98). -/
  | xor (f : Form)
  /-- Shift left by the low six bits of the second operand (R98). -/
  | shl (f : Form)
  /-- Logical shift right (R98). -/
  | shr (f : Form)
  /-- Arithmetic shift right (R98). -/
  | sra (f : Form)
  /-- Low 64 bits of the product (R98). -/
  | mul (f : Form)
  /-- High 64 bits of the signed product (R98). -/
  | mulh (f : Form)
  /-- High 64 bits of the unsigned product (R98). -/
  | mulhu (f : Form)
  /-- Signed division truncating towards zero, never trapping (R99). -/
  | div (f : Form)
  /-- Unsigned division, never trapping (R99). -/
  | divu (f : Form)
  /-- Signed remainder, never trapping (R99). -/
  | rem (f : Form)
  /-- Unsigned remainder, never trapping (R99). -/
  | remu (f : Form)
  /-- Set 1 if signed less than (R98). -/
  | slt (f : Form)
  /-- Set 1 if unsigned less than (R98). -/
  | sltu (f : Form)
  /-- Signed minimum (R98). -/
  | min (f : Form)
  /-- Signed maximum (R98). -/
  | max (f : Form)
  /-- Unsigned minimum (R98). -/
  | minu (f : Form)
  /-- Unsigned maximum (R98). -/
  | maxu (f : Form)
  /-- Count leading zero bits (R100). -/
  | clz (f : Form)
  /-- Count trailing zero bits (R100). -/
  | ctz (f : Form)
  /-- Count one bits (R100). -/
  | popc (f : Form)
  /-- Reverse the 64 bits (R100). -/
  | brev (f : Form)
  /-- Select X[a] or X[b] by whether X[c] is nonzero (R101). -/
  | sel (f : Form)
  /-- Scalar floating add, rounded once (R102). -/
  | fadd (f : Form)
  /-- Scalar floating subtract (R102). -/
  | fsub (f : Form)
  /-- Scalar floating multiply (R102). -/
  | fmul (f : Form)
  /-- Scalar fused multiply-add rounded once (R102). -/
  | fma (f : Form)
  /-- Scalar floating divide, exact or fast form (R102). -/
  | fdiv (f : Form)
  /-- Scalar floating square root (R102). -/
  | fsqrt (f : Form)
  /-- Scalar floating minimum with NaN rules (R103). -/
  | fmin (f : Form)
  /-- Scalar floating maximum with NaN rules (R103). -/
  | fmax (f : Form)
  /-- Scalar floating compare writing 1 or 0 (R103). -/
  | fcmp (f : Form)
  /-- Convert between floating types (R104). -/
  | fcvt (f : Form)
  /-- Convert floating to integer, saturating (R104). -/
  | ficvt (f : Form)
  /-- Convert integer to floating (R104). -/
  | ifcvt (f : Form)
  /-- Add a signed 11-bit immediate (R98). -/
  | addi (f : Form)
  /-- And with an immediate (R98). -/
  | andi (f : Form)
  /-- Or with an immediate (R98). -/
  | ori (f : Form)
  /-- Exclusive or with an immediate (R98). -/
  | xori (f : Form)
  /-- Shift left by an immediate (R98). -/
  | shli (f : Form)
  /-- Logical shift right by an immediate (R98). -/
  | shri (f : Form)
  /-- Arithmetic shift right by an immediate (R98). -/
  | srai (f : Form)
  /-- Set if signed less than an immediate (R98). -/
  | slti (f : Form)
  /-- Set if unsigned less than a sign-extended immediate (R98). -/
  | sltiu (f : Form)
  /-- Multiply by an immediate (R98). -/
  | muli (f : Form)
  /-- Grant vl from an immediate request and open a strip (R92). -/
  | setvli (f : Form)
  /-- Load a sign-extended 20-bit immediate shifted left by 11 (R105). -/
  | ldhi (f : Form)
  /-- PC plus a shifted 20-bit immediate (R105). -/
  | addpc (f : Form)
  /-- Indirect jump and link, faulting on misaligned target (R106). -/
  | jalr (f : Form)
  /-- Jump and link by a word offset (R106). -/
  | jal (f : Form)
  /-- Branch if equal (R106). -/
  | beq (f : Form)
  /-- Branch if not equal (R106). -/
  | bne (f : Form)
  /-- Branch if signed less than (R106). -/
  | blt (f : Form)
  /-- Branch if signed greater or equal (R106). -/
  | bge (f : Form)
  /-- Branch if unsigned less than (R106). -/
  | bltu (f : Form)
  /-- Branch if unsigned greater or equal (R106). -/
  | bgeu (f : Form)
  /-- Branch on any, none or all of a predicate's active bits (R107). -/
  | bp (f : Form)
  /-- Commit the strip, grant vl from a request and open a new checkpointed strip (R92). -/
  | setvl (f : Form)
  /-- Commit, set the vector register count and zero vector and predicate registers (R95). -/
  | vcfg (f : Form)
  /-- Set element type, rounding, flush, grouping and block length in vtr (R96). -/
  | vsetty (f : Form)
  /-- Element-wise add (R110). -/
  | vadd (f : Form)
  /-- Element-wise subtract (R110). -/
  | vsub (f : Form)
  /-- Element-wise multiply (R110). -/
  | vmul (f : Form)
  /-- Element-wise fused multiply-add (R110). -/
  | vfma (f : Form)
  /-- Element-wise fused multiply-subtract (R110). -/
  | vfms (f : Form)
  /-- Element-wise divide (R110). -/
  | vdiv (f : Form)
  /-- Element-wise square root (R110). -/
  | vsqrt (f : Form)
  /-- Element-wise minimum (R110). -/
  | vmin (f : Form)
  /-- Element-wise maximum (R110). -/
  | vmax (f : Form)
  /-- Element-wise absolute value (R110). -/
  | vabs (f : Form)
  /-- Element-wise negation (R110). -/
  | vneg (f : Form)
  /-- Element-wise bitwise and (R111). -/
  | vand (f : Form)
  /-- Element-wise bitwise or (R111). -/
  | vor (f : Form)
  /-- Element-wise exclusive or (R111). -/
  | vxor (f : Form)
  /-- Element-wise shift left (R111). -/
  | vshl (f : Form)
  /-- Element-wise logical shift right (R111). -/
  | vshr (f : Form)
  /-- Element-wise arithmetic shift right (R111). -/
  | vsra (f : Form)
  /-- Element-wise compare into a predicate (R112). -/
  | vcmp (f : Form)
  /-- Select elements by mask (R112). -/
  | vsel (f : Form)
  /-- Same-width element conversion (R113). -/
  | vcvt (f : Form)
  /-- Widening element conversion (R113). -/
  | vwid (f : Form)
  /-- Narrowing element conversion (R113). -/
  | vnar (f : Form)
  /-- Broadcast a scalar into active elements (R115). -/
  | vsplat (f : Form)
  /-- Write each element's index (R115). -/
  | vidx (f : Form)
  /-- Extract one element to a scalar register (R115). -/
  | vext (f : Form)
  /-- Insert a scalar into one element (R115). -/
  | vins (f : Form)
  /-- Slide elements by a signed scalar amount (R116). -/
  | vslide (f : Form)
  /-- Permute elements by an index vector (R116). -/
  | vperm (f : Form)
  /-- Transpose a row-major matrix of elements (R116). -/
  | vshape (f : Form)
  /-- Pack active elements to the front (R117). -/
  | vcompress (f : Form)
  /-- Spread consecutive elements to active positions (R117). -/
  | vexpand (f : Form)
  /-- Ordered sum reduction seeded by element 0 of vb (R118). -/
  | vredsum (f : Form)
  /-- Fixed-tree sum reduction (R119). -/
  | vredtsum (f : Form)
  /-- Maximum reduction (R118). -/
  | vredmax (f : Form)
  /-- Minimum reduction (R118). -/
  | vredmin (f : Form)
  /-- Inclusive p-refix sum (R120). -/
  | vscan (f : Form)
  /-- Fast exponential (R122). -/
  | vexpf (f : Form)
  /-- Correctly rounded exponential (R122). -/
  | vexpx (f : Form)
  /-- Fast natural logarithm (R122). -/
  | vlogf (f : Form)
  /-- Correctly rounded natural logarithm (R122). -/
  | vlogx (f : Form)
  /-- Fast reciprocal (R122). -/
  | vrcpf (f : Form)
  /-- Correctly rounded reciprocal (R122). -/
  | vrcpx (f : Form)
  /-- Fast reciprocal square root (R122). -/
  | vrsqf (f : Form)
  /-- Correctly rounded reciprocal square root (R122). -/
  | vrsqx (f : Form)
  /-- Fast sine (R122). -/
  | vsinf (f : Form)
  /-- Correctly rounded sine (R122). -/
  | vsinx (f : Form)
  /-- Fast hyperbolic tangent (R122). -/
  | vtanhf (f : Form)
  /-- Correctly rounded hyperbolic tangent (R122). -/
  | vtanhx (f : Form)
  /-- Predicate and (R123). -/
  | pand (f : Form)
  /-- Predicate or (R123). -/
  | por (f : Form)
  /-- Predicate exclusive or (R123). -/
  | pxor (f : Form)
  /-- Predicate and-not (R123). -/
  | pandn (f : Form)
  /-- Count predicate bits below vl (R123). -/
  | ppopc (f : Form)
  /-- Index of the first set predicate bit (R123). -/
  | pfirst (f : Form)
  /-- Keep predicate bits before the first true bit of another (R123). -/
  | pbrk (f : Form)
  /-- Write 64 predicate bits from a scalar register (R123). -/
  | pfromx (f : Form)
  /-- Start divergent VP blocks at per-element PCs (R124). -/
  | vpfetch (f : Form)
  /-- End the running group's divergent block (R128). -/
  | vpjoin (f : Form)
  /-- Exact dot product rounded once into an accumulator (R121). -/
  | vdot (f : Form)
  /-- Set a function register's shape and a constant, or empty it (R148). -/
  | fnset (f : Form)
  /-- Load function register coefficients from memory (R149). -/
  | fnld (f : Form)
  /-- Store function register coefficients to memory (R149). -/
  | fnst (f : Form)
  /-- Copy a function register (R150). -/
  | fnmov (f : Form)
  /-- Sum of two function registers (R151). -/
  | fnadd (f : Form)
  /-- Difference of two function registers (R151). -/
  | fnsub (f : Form)
  /-- Product of two function registers in exact, truncated or collocated mode (R152). -/
  | fnmul (f : Form)
  /-- Scale a function register by vector elements (R153). -/
  | fnscl (f : Form)
  /-- Scaled function plus destination (R153). -/
  | fnaxpy (f : Form)
  /-- Derivative along an axis (R154). -/
  | fndiff (f : Form)
  /-- Antiderivative along an axis (R154). -/
  | fnint (f : Form)
  /-- Integral over the element into a vector (R155). -/
  | fnquad (f : Form)
  /-- Change degree by exact raise or L2 truncation (R156). -/
  | fnproj (f : Form)
  /-- Change basis and coefficient type (R156). -/
  | fnbasis (f : Form)
  /-- Trace a function on a face (R157). -/
  | fntrace (f : Form)
  /-- Evaluate a function at points (R158). -/
  | fneval (f : Form)
  /-- Extend a function by one dimension (R159). -/
  | fnlift (f : Form)
  /-- Read a function register's header (R160). -/
  | fndeg (f : Form)
  /-- L2 norm over the element into a vector (R155). -/
  | fnnorm (f : Form)
  /-- Commit, grant tile M, N and K and open a new strip (R189). -/
  | stl (f : Form)
  /-- Issue an operation setting a tile header (R190). -/
  | tcfg (f : Form)
  /-- Issue an operation clearing a tile's contents (R190). -/
  | tzero (f : Form)
  /-- Issue a dense tile load through a descriptor (R191). -/
  | tld (f : Form)
  /-- Issue a factor load through two descriptors (R192). -/
  | tldf (f : Form)
  /-- Issue a dense tile store (R193). -/
  | tst (f : Form)
  /-- Issue a factored tile store (R193). -/
  | tstf (f : Form)
  /-- Issue a dense multiply-accumulate (R194). -/
  | tmm (f : Form)
  /-- Issue a low-rank tile product (R195). -/
  | tlmm (f : Form)
  /-- Issue a sum of two tiles (R196). -/
  | tadd (f : Form)
  /-- Recompress a factored tile synchronously (R197). -/
  | trecomp (f : Form)
  /-- Issue a conversion to a dense tile (R197). -/
  | tdense (f : Form)
  /-- Compress a dense tile to factors synchronously (R197). -/
  | tcomp (f : Form)
  /-- Issue a scaling of a tile (R198). -/
  | tscale (f : Form)
  /-- Issue a drain of accumulators with the tensor scale (R199). -/
  | tcvt (f : Form)
  /-- Wait for writers of a tile and read its header (R200). -/
  | trank (f : Form)
  /-- Wait for all issued tile operations and acquire them (R200). -/
  | tsync (f : Form)
  /-- Scalar load (R217). -/
  | ld (f : Form)
  /-- Scalar store into the strip store buffer (R217). -/
  | st (f : Form)
  /-- Vector load with stored-encoding conversion (R218). -/
  | vld (f : Form)
  /-- Vector store with stored-encoding conversion (R218). -/
  | vst (f : Form)
  /-- Fault-first vector load setting ffvl (R220). -/
  | vldff (f : Form)
  /-- Bit-plane load reading only the top planes (R222). -/
  | vldp (f : Form)
  /-- Write a vector into the current channel slot, waiting for a free slot (R187). -/
  | chsend (f : Form)
  /-- Read a vector from the current channel slot, waiting for publication (R187). -/
  | chrecv (f : Form)
  /-- Swap the memory-format control register (R223). -/
  | mfrset (f : Form)
  /-- Bind a stream register (R225). -/
  | sbind (f : Form)
  /-- Unbind a stream register (R225). -/
  | sfree (f : Form)
  /-- Read and check two tensor shape records and buffer a copy command (R232). -/
  | copy (f : Form)
  /-- Configure or deconfigure a channel and zero its region (R186). -/
  | chcfg (f : Form)
  /-- Atomic add (R246). -/
  | amoadd (f : Form)
  /-- Atomic floating add rounded by RNE (R246). -/
  | amofadd (f : Form)
  /-- Atomic integer maximum (R246). -/
  | amomax (f : Form)
  /-- Atomic integer minimum (R246). -/
  | amomin (f : Form)
  /-- Atomic and (R246). -/
  | amoand (f : Form)
  /-- Atomic or (R246). -/
  | amoor (f : Form)
  /-- Atomic swap (R246). -/
  | amoswap (f : Form)
  /-- Atomic compare and swap (R246). -/
  | amocas (f : Form)
  /-- Atomic floating maximum (R246). -/
  | amofmax (f : Form)
  /-- Order masked classes at a scope; epoch fence in DET launches (R247). -/
  | fence (f : Form)
  /-- Wait until outstanding loads, stores, copies and tile operations fall to limits (R249). -/
  | waitc (f : Form)
  /-- Wait for a timeline to reach a value and acquire (R250). -/
  | tlwait (f : Form)
  /-- Read a timeline counter (R250). -/
  | tlread (f : Form)
  /-- End the strip, optionally waiting and acquiring (R248). -/
  | stend (f : Form)
  /-- Unit barrier with release and acquire (R279). -/
  | bar (f : Form)
  /-- Blocking creation of a launch from a record (R280). -/
  | launch (f : Form)
  /-- Non-blocking launch returning a handle or refusal status (R280). -/
  | launchNb (f : Form)
  /-- Wait for a counter to complete and acquire (R281). -/
  | join (f : Form)
  /-- Cancel a launch, graph, phase or job (R283). -/
  | cancel (f : Form)
  /-- Read a counter's status word (R282). -/
  | ccread (f : Form)
  /-- Close the strip and offer the unit as a quantum victim (R284). -/
  | yield (f : Form)
  /-- Set the context's lane demand (R285). -/
  | lanepart (f : Form)
  /-- Check a collective descriptor and buffer the collective command (R302). -/
  | coll (f : Form)
  /-- Check a record and buffer a launch packet for another device (R286). -/
  | xsend (f : Form)
  /-- Commit the strip and end the thread (R287). -/
  | exit (f : Form)
  /-- Commit, load and validate a dictionary image, entering loading state (R36). -/
  | dload (f : Form)
  /-- Commit, check measurement and make the dictionary ready (R37). -/
  | dsync (f : Form)
  /-- Read a stored dictionary entry (R38). -/
  | dread (f : Form)
  /-- Read a control register (R323). -/
  | sysrd (f : Form)
  /-- Write a control register (R323). -/
  | syswr (f : Form)
  /-- Set bits of a control register, returning the old value (R323). -/
  | sysset (f : Form)
  /-- Clear bits of a control register, returning the old value (R323). -/
  | sysclr (f : Form)
  /-- Close the strip and raise Supervisor call (R324). -/
  | svc (f : Form)
  /-- Raise Software trap when X[a] is nonzero (R334). -/
  | trap (f : Form)
  /-- Commit and return from a trap to spc in the saved mode (R335). -/
  | tret (f : Form)
  /-- Invalidate translations and wait for pinned accesses (R325). -/
  | tlbinv (f : Form)
  /-- Commit and raise Breakpoint with a code (R336). -/
  | brkpt (f : Form)
  /-- Decode a D word: check state and entry, fill holes and execute the expanded long form (R35). -/
  | dictionaryWord (e : BitVec 8) (a b c : Field)
  /-- Event. A strip 65,536 cycles old closes at the next instruction boundary (R240). -/
  | stripAgeClose (t : Tid)
  /-- Event. After prior stores perform, a committed copy, coll or xsend command issues and is numbered or sent (R237). -/
  | engineCommandIssue (t : Tid)
  /-- Event. A waiting context's condition holds and it resumes its waiting instruction (R276). -/
  | waitingContextReady (t : Tid)
  /-- Event. A VP group that has executed 64 instructions stops and the next group is chosen (R125). -/
  | vpGroupYield (t : Tid)
  /-- Event. A pending dictionary image load is read, validated and measured before the next U-mode instruction (R33). -/
  | dictImageLoad (t : Tid)
  /-- Event. The X4 reads stream elements ahead of consumption without faults or pins (R227). -/
  | streamReadAhead (t : Tid) (sm : Nat) (k : Nat)
  /-- Event. When all threads of a DET launch pass their epoch fence, buffers drain in logical thread order and deferred AMOs
  apply (R81). -/
  | epochEnd (part entry : Nat)
  /-- Event. The copy engine begins a copy once earlier copies on its timeline have completed (R232). -/
  | copyStart (uid tl : Nat)
  /-- Event. A copy's elements have performed and its timeline advances (R232). -/
  | copyComplete (uid tl : Nat)
  /-- Event. A queued tile operation fires once earlier ones fired and its channel slots are available (R184). -/
  | tileOperationFire (uid : Nat)
  /-- Event. A tile operation completes, releases or publishes slots and advances tl15 (R163). -/
  | tileOperationComplete (uid : Nat)
  /-- Event. A pending Engine fault is delivered at a U-mode instruction boundary after committing the strip (R332). -/
  | engineFaultDelivery (t : Tid)
  /-- Event. After one stepped instruction completes, Breakpoint is raised as kind A (R335). -/
  | singleStepBreakpoint (t : Tid)
  /-- Event. Writing 1 to rpr.SUSP resumes the suspended tile operation at its row (R176). -/
  | rprSuspWrite (t : Tid)
  /-- Event. Writing 1 to CPSTATn.SUSP resumes the stopped copy at DONE (R233). -/
  | cpstatSuspWrite (t : Tid) (n : Nat)
  /-- Event. A register write to vtr acts as vsetty and recomputes vl (R86). -/
  | vtrWrite (t : Tid) (v : W64)
  /-- Event. Writing 1 to ENDUNIT.END commits, journals kind 6 and ends the writer's unit with FAULT set (R331). -/
  | endunitWrite (t : Tid)
  /-- Event. Writing 1 to CTXTBL.KICK makes Hornbeam reread the context table (R338). -/
  | ctxtblKick (part : Nat)
  /-- Event. Hornbeam places the next chosen unit on a free cluster (R267). -/
  | unitPlacement (part cluster : Nat)
  /-- Event. A thread of a placed unit starts in its initial state in an open strip (R261). -/
  | threadStart (t : Tid)
  /-- Event. Every 8 ms a ready launch with unplaced units gains one effective priority level up to its ceiling (R268). -/
  | priorityAging (part entry : Nat)
  /-- Event. A higher-priority ready launch displaces the lowest-priority resident unit (R269). -/
  | preemption (part : Nat)
  /-- Event. A unit resident 2 ms yields to an equal-priority ready launch (R269). -/
  | quantumExpiry (part uid : Nat)
  /-- Event. A unit whose live threads all wait is switched out by saving (R269). -/
  | idleSwitchOut (uid : Nat)
  /-- Event. A switched-out unit is restored from its frames into shares no smaller than saved (R269). -/
  | unitRestore (uid cluster : Nat)
  /-- Event. A victim that reaches no setvl within the deadline is switched out by rollback (R273). -/
  | reclaimDeadlineExpiry (t : Tid)
  /-- Event. A released pool entry leaves its 1 ms quarantine (R257). -/
  | poolEntryQuarantineEnd (part entry : Nat)
  /-- Event. An application-die write to ADQTAIL releases its stores and makes new slots available (R278). -/
  | adqtailWrite (part : Nat) (v : W64)
  /-- Event. A ring slot with OP 1 is processed as a non-blocking depth-0 launch (R278). -/
  | hostLaunchCommand (part : Nat)
  /-- Event. A ring slot with OP 2 reads a counter as ccread (R278). -/
  | hostReadCounterCommand (part : Nat)
  /-- Event. A ring slot with OP 3 cancels as cancel does (R278). -/
  | hostCancelCommand (part : Nat)
  /-- Event. A ring slot with OP 4 begins waiting for a counter without holding the ring (R278). -/
  | hostJoinCommand (part : Nat)
  /-- Event. When the joined counter is done, the status word and STATE 1 are written (R278). -/
  | hostJoinComplete (part slot : Nat)
  /-- Event. A slot with an invalid job, OP or reserved byte is failed with Launch fault reason 1 (R278). -/
  | hostCommandInvalid (part : Nat)
  /-- Event. A host write to the BAR2 doorbell window reaches Ranistam as a management command (R356). -/
  | doorbellWrite (off : Nat) (v : W64)
  /-- Event. An xsend packet arrives at the destination and is queued and counted received (R286). -/
  | xsendPacketArrival (part : Nat) (p : Packet)
  /-- Event. A queued remote launch is accepted once quota and pool allow, or discarded as unplaceable (R286). -/
  | xsendLaunchAccept (part k : Nat)
  /-- Event. Shawm collects local counts and SENT/RECV vectors to decide job or phase completion (R304). -/
  | terminationRound (part job : Nat) (remote : List RankCount)
  /-- Event. A device receiving a job cancel message cancels the job and discards later packets (R306). -/
  | jobCancelMessage (part job : Nat)
  /-- Event. Shawm matches the n-th collective of every member and starts it or reports a mismatch (R302). -/
  | collectiveMatch (part job gl : Nat) (remote : List RemoteDesc)
  /-- Event. A chunk's result is final and its DST and RESID bytes are written (R302). -/
  | collectiveChunkFinal (part job gl : Nat) (remote : List RemoteData) (order : List Nat)
  /-- Event. The collective completes; STAT is written and glN advances on every member (R302). -/
  | collectiveComplete (part job gl : Nat)
  /-- Event. No progress for PATIENCE ms abandons the collective with code 1 and event 4 (R303). -/
  | collectivePatienceExpiry (part job gl : Nat)
  /-- Event. A member leaving the job ends the collective with code 3 (R303). -/
  | collectiveMemberLost (part job gl : Nat)
  /-- Event. Ranistam enables a down port, which starts training (R295). -/
  | portEnable (port : Nat)
  /-- Event. A training port moves to attesting (R295). -/
  | lanesTrained (port : Nat)
  /-- Event. An attesting port agrees a session key and goes up, writing link-up event (R295). -/
  | keyAgreed (x : Session) (peer tier rtt : Nat)
  /-- Event. A peer fails attestation; the port goes down with an authentication-failure event (R295). -/
  | peerAttestationFailure (x : Session)
  /-- Event. A flit arrives, is checked and delivered to Shawm in sequence order (R292). -/
  | flitReceive (port : Nat) (f : Flit)
  /-- Event. A lost or failed flit is sent again and the port enters retrying (R292). -/
  | flitResend (f : FlitName)
  /-- Event. Flits of the retry window are acknowledged; with the last of them the port returns to up (R292, R295). -/
  | retryWindowAcknowledged (a : FlitAck)
  /-- Event. After 2^32 flits or at retraining a new key is agreed and KEYEP increments (R293). -/
  | keyReagreement (x : Session)
  /-- Event. A lane fails persistently; the port runs at half width with a degraded event (R295). -/
  | persistentLaneFailure (port : Nat)
  /-- Event. A flit sent 16 times or three tag failures take the port to failed (R295). -/
  | linkFailure (port : Nat)
  /-- Event. Ranistam retrains a failed port, which returns to training (R295). -/
  | portRetrain (port : Nat)
  /-- Event. Data arriving through PCIe or Isapel receive guards and enter storage (R344). -/
  | ingressWrite (dest : Inbound) (bytes : List Byte)
  /-- Event. A line leaving through a port is checked; a failing line is sent poisoned and journalled (R344). -/
  | egressLine (port pa : Nat)
  /-- Event. A corrected SRAM error counts in HEALTH.CORR (R341). -/
  | sramCorrectedError (die core : Nat) (lane : Option Nat)
  /-- Event. An uncorrectable error in a lane of a core's register slices raises Uncorrectable memory error in the thread
  whose share holds the lane, and retires the slice (R341). -/
  | sramUncorrectableError (core lane : Nat) (shadowOk : Bool)
  /-- Event. A corrected DRAM error counts toward frame retirement (R342). -/
  | dramCorrectedError (pa : Nat)
  /-- Event. An uncorrectable DRAM error poisons the line (R342). -/
  | dramUncorrectableError (pa : Nat)
  /-- Event. The application die ends sessions, zeroes moving dies and writes PARTCFG (R319). -/
  | partitionChange (d : Division)
  /-- Event. The application die produces a signed attestation report on request (R321). -/
  | attestationReport (part job : Nat) (nonce : List Byte)
  /-- Event. Power-on runs bring-up stages 1 to 6 and starts Ranistam or halts (R353). -/
  | powerOn (b : BootInput)
  /-- Event. A rail leaving tolerance is power-off and all volatile state is lost (R349). -/
  | railOutOfTolerance (rail : Nat)
  /-- Event. At or above 95 °C the arithmetic clock drops 100 MHz every 1 ms (R350). -/
  | clockReduction (part die : Nat)
  /-- Event. Below 90 °C the clock rises 100 MHz every 1 ms (R350). -/
  | clockRaise (part die : Nat)
  /-- Event. At 115 °C the sequencer switches off every rail (R350). -/
  | thermalShutdown (temp : Nat)
  /-- Event. A committed strip's buffered stores perform in coherence order after the thread has continued (R237). -/
  | stripStoresPerform (t : Tid) (k : Nat)
  /-- Event. Ranistam registers a collective group under a number 0 to 255 with its members' coordinates (R298). -/
  | groupRegistration (part job num : Nat) (g : Group)
  /-- Event. The application die sets a cluster's cache size between units through its own access to the cluster registers
  (R207). -/
  | cccfgWrite (cluster : Nat) (v : W64)
  /-- Event. The application die writes ADQ, setting the ring base and size and enabling service with EN (R278). -/
  | adqWrite (part : Nat) (v : W64)
  deriving DecidableEq, Repr

end Sys2Proof
end

