-- ==== Sys2Proof/Machine/OpTable.lean ====
section
/-! DEFINITION. The opcode map (R39) as rows, and the validity of a long form (R24, R26 to R28). -/

namespace Sys2Proof.Machine

/-- What a field of a long form holds, for one opcode (R22, R24 item 10). -/
inductive FieldKind where
  | unused
  | x | v | p | fn | t | sm | ch
  /-- a timeline code, tl0 to tl15 and gl0 to gl7 -/
  | tl
  /-- a constant of the entry -/
  | const
  /-- the field whose meaning the address mode gives (R21) -/
  | mem
  /-- the D field of `fntrace`, checked against v63 (R157) -/
  | fnOrV
  deriving DecidableEq, Repr

/-- The FMT codes an opcode allows (R27). -/
inductive FmtKind where
  | zero
  /-- fadd to ifcvt -/
  | sfloat
  /-- the vector range -/
  | elem
  /-- stored encodings of vector accesses -/
  | memory
  /-- ld and st -/
  | scalarMem
  | amoInt | amoFloat
  /-- tldf and tstf (R192, R193) -/
  | factor
  /-- tcvt (R199) -/
  | drain
  deriving DecidableEq, Repr

/-- The MOD layouts of R28. -/
inductive ModKind where
  | zero | rnd | rndFast | cmp | scope | addr | fnmul | face | stl | tmm | test
  deriving DecidableEq, Repr

/-- The immediate shapes of R26. -/
inductive ImmKind where
  | none
  /-- an optional 14-bit immediate in B:C beside the register form -/
  | reg14
  /-- a required 14-bit immediate in B:C -/
  | need14
  | setvl
  /-- a required 21-bit immediate in A:B:C -/
  | wide
  /-- as `wide`, within the range of imm20 -/
  | wide20
  /-- the offset of address mode 00 in B:C -/
  | mem
  /-- a control register number in B:C -/
  | sys
  deriving DecidableEq, Repr

/-- Which thread kinds execute an opcode (R41). -/
inductive ThreadKind where
  | both | vec | mcc
  deriving DecidableEq, Repr

/-- One row of the opcode map. -/
structure OpRow where
  opc : Nat
  d : FieldKind
  a : FieldKind
  b : FieldKind
  c : FieldKind
  fmt : FmtKind
  mod : ModKind
  imm : ImmKind
  maskable : Bool
  access : Bool
  kind : ThreadKind
  deriving DecidableEq, Repr

/-- A row, its columns in order. -/
def row (opc : Nat) (d a b c : FieldKind) (fmt : FmtKind) (mod : ModKind) (imm : ImmKind)
    (maskable access : Bool) (kind : ThreadKind) : OpRow :=
  { opc, d, a, b, c, fmt, mod, imm, maskable, access, kind }

/-- The scalar range 0x00 to 0x31 (R97 to R108). -/
def scalarRows : List OpRow := [
  row 0x00 .unused .unused .unused .unused .zero .zero .none false false .both,
  row 0x01 .x .x .x .unused .zero .zero .reg14 false false .both,
  row 0x02 .x .x .x .unused .zero .zero .none false false .both,
  row 0x03 .x .x .x .unused .zero .zero .reg14 false false .both,
  row 0x04 .x .x .x .unused .zero .zero .reg14 false false .both,
  row 0x05 .x .x .x .unused .zero .zero .reg14 false false .both,
  row 0x06 .x .x .x .unused .zero .zero .reg14 false false .both,
  row 0x07 .x .x .x .unused .zero .zero .reg14 false false .both,
  row 0x08 .x .x .x .unused .zero .zero .reg14 false false .both,
  row 0x09 .x .x .x .unused .zero .zero .reg14 false false .both,
  row 0x0A .x .x .x .unused .zero .zero .none false false .both,
  row 0x0B .x .x .x .unused .zero .zero .none false false .both,
  row 0x0C .x .x .x .unused .zero .zero .none false false .both,
  row 0x0D .x .x .x .unused .zero .zero .none false false .both,
  row 0x0E .x .x .x .unused .zero .zero .none false false .both,
  row 0x0F .x .x .x .unused .zero .zero .none false false .both,
  row 0x10 .x .x .x .unused .zero .zero .reg14 false false .both,
  row 0x11 .x .x .x .unused .zero .zero .reg14 false false .both,
  row 0x12 .x .x .x .unused .zero .zero .none false false .both,
  row 0x13 .x .x .x .unused .zero .zero .none false false .both,
  row 0x14 .x .x .x .unused .zero .zero .none false false .both,
  row 0x15 .x .x .x .unused .zero .zero .none false false .both,
  row 0x16 .x .x .unused .unused .zero .zero .none false false .both,
  row 0x17 .x .x .unused .unused .zero .zero .none false false .both,
  row 0x18 .x .x .unused .unused .zero .zero .none false false .both,
  row 0x19 .x .x .unused .unused .zero .zero .none false false .both,
  row 0x1A .x .x .x .x .zero .zero .none false false .both,
  row 0x1B .x .x .x .unused .sfloat .rnd .none false false .both,
  row 0x1C .x .x .x .unused .sfloat .rnd .none false false .both,
  row 0x1D .x .x .x .unused .sfloat .rnd .none false false .both,
  row 0x1E .x .x .x .x .sfloat .rnd .none false false .both,
  row 0x1F .x .x .x .unused .sfloat .rndFast .none false false .both,
  row 0x20 .x .x .unused .unused .sfloat .rndFast .none false false .both,
  row 0x21 .x .x .x .unused .sfloat .zero .none false false .both,
  row 0x22 .x .x .x .unused .sfloat .zero .none false false .both,
  row 0x23 .x .x .x .unused .sfloat .cmp .none false false .both,
  row 0x24 .x .x .const .unused .sfloat .rnd .none false false .both,
  row 0x25 .x .x .const .unused .sfloat .rnd .none false false .both,
  row 0x26 .x .x .const .unused .sfloat .rnd .none false false .both,
  row 0x27 .x .unused .unused .unused .zero .zero .wide20 false false .both,
  row 0x28 .x .unused .unused .unused .zero .zero .wide false false .both,
  row 0x29 .x .unused .unused .unused .zero .zero .wide false false .both,
  row 0x2A .x .x .unused .unused .zero .zero .need14 false false .both,
  row 0x2B .x .x .unused .unused .zero .zero .need14 false false .both,
  row 0x2C .x .x .unused .unused .zero .zero .need14 false false .both,
  row 0x2D .x .x .unused .unused .zero .zero .need14 false false .both,
  row 0x2E .x .x .unused .unused .zero .zero .need14 false false .both,
  row 0x2F .x .x .unused .unused .zero .zero .need14 false false .both,
  row 0x30 .x .x .unused .unused .zero .zero .need14 false false .both,
  row 0x31 .p .unused .unused .unused .zero .test .wide false false .both]

/-- The vector range 0x40 to 0x7D (R90 to R128). DEDUCED: the vector arithmetic that R28 gives a rounding override is what
R110 lists as element arithmetic, `vmin`, `vmax`, `vabs` and `vneg` among it though they never round, and not `vidx` (log
entry 47). -/
def vectorRows : List OpRow := [
  row 0x40 .x .x .unused .unused .zero .zero .setvl false false .vec,
  row 0x41 .unused .x .unused .unused .zero .zero .none false false .vec,
  row 0x42 .const .const .const .unused .zero .zero .none false false .vec,
  row 0x43 .v .v .v .unused .elem .rnd .none true false .vec,
  row 0x44 .v .v .v .unused .elem .rnd .none true false .vec,
  row 0x45 .v .v .v .unused .elem .rnd .none true false .vec,
  row 0x46 .v .v .v .v .elem .rnd .none true false .vec,
  row 0x47 .v .v .v .v .elem .rnd .none true false .vec,
  row 0x48 .v .v .v .unused .elem .rndFast .none true false .vec,
  row 0x49 .v .v .unused .unused .elem .rndFast .none true false .vec,
  row 0x4A .v .v .v .unused .elem .rnd .none true false .vec,
  row 0x4B .v .v .v .unused .elem .rnd .none true false .vec,
  row 0x4C .v .v .unused .unused .elem .rnd .none true false .vec,
  row 0x4D .v .v .unused .unused .elem .rnd .none true false .vec,
  row 0x4E .v .v .v .unused .elem .zero .none true false .vec,
  row 0x4F .v .v .v .unused .elem .zero .none true false .vec,
  row 0x50 .v .v .v .unused .elem .zero .none true false .vec,
  row 0x51 .v .v .v .unused .elem .zero .none true false .vec,
  row 0x52 .v .v .v .unused .elem .zero .none true false .vec,
  row 0x53 .v .v .v .unused .elem .zero .none true false .vec,
  row 0x54 .p .v .v .unused .elem .cmp .none true false .vec,
  row 0x55 .v .v .v .unused .elem .zero .none true false .vec,
  row 0x56 .v .v .unused .unused .elem .rnd .none true false .vec,
  row 0x57 .v .v .unused .unused .elem .rnd .none true false .vec,
  row 0x58 .v .v .unused .unused .elem .rnd .none true false .vec,
  row 0x59 .v .x .unused .unused .elem .zero .none true false .vec,
  row 0x5A .v .unused .unused .unused .elem .zero .none true false .vec,
  row 0x5B .x .v .x .unused .elem .zero .none false false .vec,
  row 0x5C .v .x .x .unused .elem .zero .none false false .vec,
  row 0x5D .v .v .x .unused .elem .zero .none true false .vec,
  row 0x5E .v .v .v .unused .elem .zero .none true false .vec,
  row 0x5F .v .v .x .unused .elem .zero .none true false .vec,
  row 0x60 .v .v .unused .unused .elem .zero .none true false .vec,
  row 0x61 .v .v .unused .unused .elem .zero .none true false .vec,
  row 0x62 .v .v .v .unused .elem .rnd .none true false .vec,
  row 0x63 .v .v .v .unused .elem .rnd .none true false .vec,
  row 0x64 .v .v .v .unused .elem .rnd .none true false .vec,
  row 0x65 .v .v .v .unused .elem .rnd .none true false .vec,
  row 0x66 .v .v .v .unused .elem .rnd .none true false .vec,
  row 0x67 .v .v .unused .unused .elem .zero .none true false .vec,
  row 0x68 .v .v .unused .unused .elem .zero .none true false .vec,
  row 0x69 .v .v .unused .unused .elem .zero .none true false .vec,
  row 0x6A .v .v .unused .unused .elem .zero .none true false .vec,
  row 0x6B .v .v .unused .unused .elem .zero .none true false .vec,
  row 0x6C .v .v .unused .unused .elem .zero .none true false .vec,
  row 0x6D .v .v .unused .unused .elem .zero .none true false .vec,
  row 0x6E .v .v .unused .unused .elem .zero .none true false .vec,
  row 0x6F .v .v .unused .unused .elem .zero .none true false .vec,
  row 0x70 .v .v .unused .unused .elem .zero .none true false .vec,
  row 0x71 .v .v .unused .unused .elem .zero .none true false .vec,
  row 0x72 .v .v .unused .unused .elem .zero .none true false .vec,
  row 0x73 .p .p .p .unused .zero .zero .none false false .vec,
  row 0x74 .p .p .p .unused .zero .zero .none false false .vec,
  row 0x75 .p .p .p .unused .zero .zero .none false false .vec,
  row 0x76 .p .p .p .unused .zero .zero .none false false .vec,
  row 0x77 .x .p .unused .unused .zero .zero .none false false .vec,
  row 0x78 .x .p .unused .unused .zero .zero .none false false .vec,
  row 0x79 .p .p .p .unused .zero .zero .none false false .vec,
  row 0x7A .p .x .x .unused .zero .zero .none false false .vec,
  row 0x7B .unused .v .x .unused .elem .zero .none true false .vec,
  row 0x7C .unused .unused .unused .unused .zero .zero .none false false .vec,
  row 0x7D .v .v .v .unused .elem .rnd .none true false .vec]

/-- The function range 0x80 to 0x92 (R129 to R160). -/
def functionRows : List OpRow := [
  row 0x80 .fn .x .x .unused .zero .zero .none true false .vec,
  row 0x81 .fn .x .x .unused .zero .zero .none true true .vec,
  row 0x82 .fn .x .unused .unused .zero .zero .none true true .vec,
  row 0x83 .fn .fn .unused .unused .zero .zero .none true false .vec,
  row 0x84 .fn .fn .fn .unused .zero .zero .none true false .vec,
  row 0x85 .fn .fn .fn .unused .zero .zero .none true false .vec,
  row 0x86 .fn .fn .fn .unused .zero .fnmul .none true false .vec,
  row 0x87 .fn .fn .v .unused .zero .zero .none true false .vec,
  row 0x88 .fn .fn .v .unused .zero .zero .none true false .vec,
  row 0x89 .fn .fn .const .unused .zero .zero .none true false .vec,
  row 0x8A .fn .fn .const .unused .zero .zero .none true false .vec,
  row 0x8B .v .fn .unused .unused .zero .zero .none true false .vec,
  row 0x8C .fn .fn .x .unused .zero .zero .none true false .vec,
  row 0x8D .fn .fn .x .unused .zero .zero .none true false .vec,
  row 0x8E .fnOrV .fn .unused .unused .zero .face .none true false .vec,
  row 0x8F .v .fn .v .unused .zero .zero .none true false .vec,
  row 0x90 .fn .fn .const .unused .zero .zero .none true false .vec,
  row 0x91 .x .fn .unused .unused .zero .zero .none false false .vec,
  row 0x92 .v .fn .unused .unused .zero .zero .none true false .vec]

/-- The tile range 0xA0 to 0xB0 (R161 to R200). -/
def tileRows : List OpRow := [
  row 0xA0 .x .x .x .unused .zero .stl .none false false .mcc,
  row 0xA1 .t .x .unused .unused .zero .zero .none false false .mcc,
  row 0xA2 .t .unused .unused .unused .zero .zero .none false false .mcc,
  row 0xA3 .t .x .unused .unused .zero .zero .none false true .mcc,
  row 0xA4 .t .x .x .unused .factor .zero .none false true .mcc,
  row 0xA5 .t .x .unused .unused .zero .zero .none false true .mcc,
  row 0xA6 .t .x .unused .unused .factor .zero .none false true .mcc,
  row 0xA7 .t .x .x .unused .zero .tmm .none false false .mcc,
  row 0xA8 .t .t .t .unused .zero .zero .none false false .mcc,
  row 0xA9 .t .t .t .unused .zero .zero .none false false .mcc,
  row 0xAA .t .t .unused .unused .zero .zero .none false false .mcc,
  row 0xAB .t .t .unused .unused .zero .zero .none false false .mcc,
  row 0xAC .t .t .x .unused .zero .zero .none false false .mcc,
  row 0xAD .t .t .x .unused .zero .zero .none false false .mcc,
  row 0xAE .t .x .x .unused .drain .zero .none false false .mcc,
  row 0xAF .x .t .unused .unused .zero .zero .none false false .mcc,
  row 0xB0 .unused .unused .unused .unused .zero .zero .none false false .mcc]

/-- Memory, channel, atomic and ordering opcodes 0xC0 to 0xDA (R206 to R250). -/
def memoryRows : List OpRow := [
  row 0xC0 .x .x .mem .unused .scalarMem .addr .mem false true .both,
  row 0xC1 .x .x .mem .unused .scalarMem .addr .mem false true .both,
  row 0xC2 .v .x .mem .v .memory .addr .mem true true .vec,
  row 0xC3 .v .x .mem .v .memory .addr .mem true true .vec,
  row 0xC4 .v .x .mem .v .memory .addr .mem true true .vec,
  row 0xC5 .v .x .mem .const .memory .addr .mem true true .vec,
  row 0xC6 .x .x .unused .unused .zero .zero .none false false .vec,
  row 0xC7 .sm .x .x .unused .zero .zero .none false false .vec,
  row 0xC8 .sm .unused .unused .unused .zero .zero .none false false .vec,
  row 0xC9 .tl .x .x .unused .zero .zero .none false true .both,
  row 0xCA .v .ch .mem .unused .zero .addr .none true false .vec,
  row 0xCB .v .ch .mem .unused .zero .addr .none true false .vec,
  row 0xCC .ch .x .x .unused .zero .zero .none false false .both,
  row 0xCD .x .x .x .unused .amoInt .scope .none false true .both,
  row 0xCE .x .x .x .unused .amoFloat .scope .none false true .both,
  row 0xCF .x .x .x .unused .amoInt .scope .none false true .both,
  row 0xD0 .x .x .x .unused .amoInt .scope .none false true .both,
  row 0xD1 .x .x .x .unused .amoInt .scope .none false true .both,
  row 0xD2 .x .x .x .unused .amoInt .scope .none false true .both,
  row 0xD3 .x .x .x .unused .amoInt .scope .none false true .both,
  row 0xD4 .x .x .x .unused .amoInt .scope .none false true .both,
  row 0xD5 .x .x .x .unused .amoFloat .scope .none false true .both,
  row 0xD6 .unused .x .unused .unused .zero .scope .none false false .both,
  row 0xD7 .const .const .const .unused .zero .scope .none false false .both,
  row 0xD8 .tl .x .unused .unused .zero .scope .none false false .both,
  row 0xD9 .x .tl .unused .unused .zero .zero .none false false .both,
  row 0xDA .unused .unused .unused .unused .zero .scope .none false false .both]

/-- Execution, dictionary and system opcodes 0xE0 to 0xFB (R36 to R38, R278 to R336). -/
def systemRows : List OpRow := [
  row 0xE0 .unused .unused .unused .unused .zero .scope .none false false .both,
  row 0xE1 .x .x .const .unused .zero .zero .none false false .both,
  row 0xE2 .x .x .unused .unused .zero .scope .none false false .both,
  row 0xE3 .unused .x .unused .unused .zero .zero .none false false .both,
  row 0xE4 .x .x .unused .unused .zero .zero .none false false .both,
  row 0xE5 .unused .unused .unused .unused .zero .zero .none false false .both,
  row 0xE6 .x .x .unused .unused .zero .zero .none false false .vec,
  row 0xE7 .tl .x .unused .unused .zero .zero .none false false .both,
  row 0xE8 .unused .x .x .unused .zero .zero .none false false .both,
  row 0xE9 .unused .unused .unused .unused .zero .zero .none false false .both,
  row 0xF0 .unused .x .unused .unused .zero .zero .none false false .both,
  row 0xF1 .unused .unused .unused .unused .zero .zero .none false false .both,
  row 0xF2 .x .x .unused .unused .zero .zero .none false false .both,
  row 0xF3 .x .x .unused .unused .zero .zero .sys false false .both,
  row 0xF4 .x .x .unused .unused .zero .zero .sys false false .both,
  row 0xF5 .x .x .unused .unused .zero .zero .sys false false .both,
  row 0xF6 .x .x .unused .unused .zero .zero .sys false false .both,
  row 0xF7 .unused .x .unused .unused .zero .zero .none false false .both,
  row 0xF8 .unused .x .x .unused .zero .zero .none false false .both,
  row 0xF9 .unused .unused .unused .unused .zero .zero .none false false .both,
  row 0xFA .unused .x .x .unused .zero .zero .none false false .both,
  row 0xFB .const .const .const .unused .zero .zero .none false false .both]

/-- The whole opcode map (R39): 197 opcodes. -/
def opRows : List OpRow :=
  scalarRows ++ vectorRows ++ functionRows ++ tileRows ++ memoryRows ++ systemRows

/-- The row of an opcode; none in a gap of the map (R39). -/
def opRow? (opc : Nat) : Option OpRow :=
  (if opc < 0x40 then scalarRows
   else if opc < 0x80 then vectorRows
   else if opc < 0xA0 then functionRows
   else if opc < 0xC0 then tileRows
   else if opc < 0xE0 then memoryRows
   else systemRows).find? (fun r => r.opc == opc)

/-- The largest number a register field may name (R24 item 10); none where the field is not checked. -/
def FieldKind.limit : FieldKind → Option Nat
  | .unused => some 0
  | .x => some 63
  | .v => some 63
  | .p => some 95
  | .fn => some 15
  | .t => some 15
  | .sm => some 7
  | .ch => some 15
  | .tl => some 23
  | .const => none
  | .mem => none
  | .fnOrV => some 63

/-- A field value within its kind's range. -/
def FieldKind.admits (k : FieldKind) (v : Field) : Bool :=
  match k.limit with
  | none => true
  | some n => v.toNat ≤ n

/-- What the B field holds under an address mode (R21): imm7, x, v or sm. -/
def memKind (mode : Nat) : FieldKind :=
  if mode == 1 then .x else if mode == 2 then .v else if mode == 3 then .sm else .const

/-- FMT codes of the element types that vector instructions accept (R27). -/
def elemCodes : List Nat := [1, 2, 3, 4, 5, 6, 9, 10, 11, 12, 13, 14, 15, 16, 17, 18, 19]

/-- R24 item 5 with R27. -/
def FmtKind.admits (k : FmtKind) (fmt : Nat) : Bool :=
  fmt == 0 ||
  match k with
  | .zero => false
  | .sfloat => fmt ≤ 4
  | .elem => elemCodes.contains fmt
  | .memory => fmt ≤ 14
  | .scalarMem => [1, 2, 3, 4, 11, 12, 13, 14, 16, 17, 18, 19].contains fmt
  | .amoInt => [13, 14, 18, 19].contains fmt
  | .amoFloat => fmt ≤ 2
  | .factor => fmt ≤ 3
  | .drain => [1, 2, 3, 4, 5, 6, 9, 11, 12, 13, 14, 16, 17, 18, 19].contains fmt

/-- R24 item 6 with R28. -/
def ModKind.admits (k : ModKind) (mod : Nat) : Bool :=
  match k with
  | .zero => mod == 0
  | .rnd => mod ≤ 6
  | .rndFast => mod ≤ 14 && mod % 8 != 7
  | .cmp => mod ≤ 6
  | .scope => mod % 8 ≤ 5 && mod / 8 ≤ 2
  | .addr => mod ≤ 3
  | .fnmul => mod ≤ 2
  | .face => mod ≤ 5
  | .stl => mod == 0 || mod == 2 || mod == 3
  | .tmm => mod ≤ 1
  | .test => mod ≤ 2

/-- The 14-bit immediate B:C, sign-extended (R26). -/
def imm14 (f : Form) : Int := (f.b ++ f.c : BitVec 14).toInt

/-- The 21-bit immediate A:B:C, sign-extended (R26). -/
def imm21 (f : Form) : Int := (f.a ++ f.b ++ f.c : BitVec 21).toInt

/-- The predicate fields are legal for the opcode (R24 item 3). -/
def predOk (r : OpRow) (f : Form) : Bool :=
  f.pred.toNat ≤ 95 && !(f.pred == 0 && f.pinv) && (r.maskable || (f.pred == 0 && !f.pinv))

/-- The register fields of the form with IMM = 0 (R24 items 8 and 10). -/
def regFieldsOk (r : OpRow) (f : Form) : Bool :=
  let bk := if r.b == .mem then memKind (f.mod.toNat % 4) else r.b
  r.d.admits f.d && r.a.admits f.a && bk.admits f.b && r.c.admits f.c

/-- The immediate shape (R24 item 7 with R26), and the register fields beside it. -/
def fieldsOk (r : OpRow) (f : Form) : Bool :=
  match r.imm, f.imm with
  | .none, false => regFieldsOk r f
  | .none, true => false
  | .reg14, false => regFieldsOk r f
  | .reg14, true => r.d.admits f.d && r.a.admits f.a
  | .need14, false => false
  | .need14, true => r.d.admits f.d && r.a.admits f.a
  | .setvl, false => regFieldsOk r f
  | .setvl, true => r.d.admits f.d && f.a == 0 && f.b.toNat < 32
  | .wide, false => false
  | .wide, true => r.d.admits f.d
  | .wide20, false => false
  | .wide20, true => r.d.admits f.d && decide (-524288 ≤ imm21 f) && decide (imm21 f < 524288)
  | .mem, false => regFieldsOk r f
  | .mem, true => r.d.admits f.d && r.a.admits f.a && f.mod.toNat % 4 == 0
  | .sys, false => regFieldsOk r f
  | .sys, true => r.d.admits f.d && f.a == 0 && f.b.toNat < 32

/-- R24, items 1, 3 to 8 and 10: the form is one the opcode admits. -/
def validForm (opc : Nat) (f : Form) : Bool :=
  match opRow? opc with
  | none => false
  | some r =>
    predOk r f && (f.cls == 0 || r.access) && r.fmt.admits f.fmt.toNat && r.mod.admits f.mod.toNat && fieldsOk r f

/-- R24 item 9: every field that an open hole fills is zero in the template; a wide shape keeps holes B and C. `keep`
is KEEP: bit 2 for hole A, bit 1 for hole B, bit 0 for hole C. -/
def holesOk (opc : Nat) (f : Form) (keep : BitVec 3) : Bool :=
  let wide := match opRow? opc with
    | some r => r.imm == .wide || r.imm == .wide20
    | none => false
  (keep.getLsbD 2 || f.d == 0) &&
  (keep.getLsbD 1 || f.a == 0) &&
  (keep.getLsbD 0 || (if f.imm then f.c == 0 else f.b == 0)) &&
  (!wide || (keep.getLsbD 1 && keep.getLsbD 0))

/-- The instruction of each long opcode (R39): the scalar range 0x00 to 0x31 (R97 to R108). -/
def scalarCtors : List (Nat × (Form → Instr)) := [
  (0x00, fun _ => .udf 0),
  (0x01, fun f => if f.imm then .addi f else .add f),
  (0x02, .sub),
  (0x03, fun f => if f.imm then .andi f else .and f),
  (0x04, fun f => if f.imm then .ori f else .or f),
  (0x05, fun f => if f.imm then .xori f else .xor f),
  (0x06, fun f => if f.imm then .shli f else .shl f),
  (0x07, fun f => if f.imm then .shri f else .shr f),
  (0x08, fun f => if f.imm then .srai f else .sra f),
  (0x09, fun f => if f.imm then .muli f else .mul f),
  (0x0A, .mulh),
  (0x0B, .mulhu),
  (0x0C, .div),
  (0x0D, .divu),
  (0x0E, .rem),
  (0x0F, .remu),
  (0x10, fun f => if f.imm then .slti f else .slt f),
  (0x11, fun f => if f.imm then .sltiu f else .sltu f),
  (0x12, .min),
  (0x13, .max),
  (0x14, .minu),
  (0x15, .maxu),
  (0x16, .clz),
  (0x17, .ctz),
  (0x18, .popc),
  (0x19, .brev),
  (0x1A, .sel),
  (0x1B, .fadd),
  (0x1C, .fsub),
  (0x1D, .fmul),
  (0x1E, .fma),
  (0x1F, .fdiv),
  (0x20, .fsqrt),
  (0x21, .fmin),
  (0x22, .fmax),
  (0x23, .fcmp),
  (0x24, .fcvt),
  (0x25, .ficvt),
  (0x26, .ifcvt),
  (0x27, .ldhi),
  (0x28, .addpc),
  (0x29, .jal),
  (0x2A, .jalr),
  (0x2B, .beq),
  (0x2C, .bne),
  (0x2D, .blt),
  (0x2E, .bge),
  (0x2F, .bltu),
  (0x30, .bgeu),
  (0x31, .bp)]

/-- The instruction of each long opcode (R39): the vector range 0x40 to 0x7D (R90 to R128). -/
def vectorCtors : List (Nat × (Form → Instr)) := [
  (0x40, fun f => if f.imm then .setvli f else .setvl f),
  (0x41, .vcfg),
  (0x42, .vsetty),
  (0x43, .vadd),
  (0x44, .vsub),
  (0x45, .vmul),
  (0x46, .vfma),
  (0x47, .vfms),
  (0x48, .vdiv),
  (0x49, .vsqrt),
  (0x4A, .vmin),
  (0x4B, .vmax),
  (0x4C, .vabs),
  (0x4D, .vneg),
  (0x4E, .vand),
  (0x4F, .vor),
  (0x50, .vxor),
  (0x51, .vshl),
  (0x52, .vshr),
  (0x53, .vsra),
  (0x54, .vcmp),
  (0x55, .vsel),
  (0x56, .vcvt),
  (0x57, .vwid),
  (0x58, .vnar),
  (0x59, .vsplat),
  (0x5A, .vidx),
  (0x5B, .vext),
  (0x5C, .vins),
  (0x5D, .vslide),
  (0x5E, .vperm),
  (0x5F, .vshape),
  (0x60, .vcompress),
  (0x61, .vexpand),
  (0x62, .vredsum),
  (0x63, .vredtsum),
  (0x64, .vredmax),
  (0x65, .vredmin),
  (0x66, .vscan),
  (0x67, .vexpf),
  (0x68, .vexpx),
  (0x69, .vlogf),
  (0x6A, .vlogx),
  (0x6B, .vrcpf),
  (0x6C, .vrcpx),
  (0x6D, .vrsqf),
  (0x6E, .vrsqx),
  (0x6F, .vsinf),
  (0x70, .vsinx),
  (0x71, .vtanhf),
  (0x72, .vtanhx),
  (0x73, .pand),
  (0x74, .por),
  (0x75, .pxor),
  (0x76, .pandn),
  (0x77, .ppopc),
  (0x78, .pfirst),
  (0x79, .pbrk),
  (0x7A, .pfromx),
  (0x7B, .vpfetch),
  (0x7C, .vpjoin),
  (0x7D, .vdot)]

/-- The instruction of each long opcode (R39): the function range 0x80 to 0x92 (R129 to R160). -/
def functionCtors : List (Nat × (Form → Instr)) := [
  (0x80, .fnset),
  (0x81, .fnld),
  (0x82, .fnst),
  (0x83, .fnmov),
  (0x84, .fnadd),
  (0x85, .fnsub),
  (0x86, .fnmul),
  (0x87, .fnscl),
  (0x88, .fnaxpy),
  (0x89, .fndiff),
  (0x8A, .fnint),
  (0x8B, .fnquad),
  (0x8C, .fnproj),
  (0x8D, .fnbasis),
  (0x8E, .fntrace),
  (0x8F, .fneval),
  (0x90, .fnlift),
  (0x91, .fndeg),
  (0x92, .fnnorm)]

/-- The instruction of each long opcode (R39): the tile range 0xA0 to 0xB0 (R161 to R200). -/
def tileCtors : List (Nat × (Form → Instr)) := [
  (0xA0, .stl),
  (0xA1, .tcfg),
  (0xA2, .tzero),
  (0xA3, .tld),
  (0xA4, .tldf),
  (0xA5, .tst),
  (0xA6, .tstf),
  (0xA7, .tmm),
  (0xA8, .tlmm),
  (0xA9, .tadd),
  (0xAA, .trecomp),
  (0xAB, .tdense),
  (0xAC, .tcomp),
  (0xAD, .tscale),
  (0xAE, .tcvt),
  (0xAF, .trank),
  (0xB0, .tsync)]

/-- The instruction of each long opcode (R39): memory, channel, atomic and ordering opcodes 0xC0 to 0xDA (R206 to R250). -/
def memoryCtors : List (Nat × (Form → Instr)) := [
  (0xC0, .ld),
  (0xC1, .st),
  (0xC2, .vld),
  (0xC3, .vst),
  (0xC4, .vldff),
  (0xC5, .vldp),
  (0xC6, .mfrset),
  (0xC7, .sbind),
  (0xC8, .sfree),
  (0xC9, .copy),
  (0xCA, .chsend),
  (0xCB, .chrecv),
  (0xCC, .chcfg),
  (0xCD, .amoadd),
  (0xCE, .amofadd),
  (0xCF, .amomax),
  (0xD0, .amomin),
  (0xD1, .amoand),
  (0xD2, .amoor),
  (0xD3, .amoswap),
  (0xD4, .amocas),
  (0xD5, .amofmax),
  (0xD6, .fence),
  (0xD7, .waitc),
  (0xD8, .tlwait),
  (0xD9, .tlread),
  (0xDA, .stend)]

/-- The instruction of each long opcode (R39): execution, dictionary and system opcodes 0xE0 to 0xFB (R36 to R38, R278 to
R336). -/
def systemCtors : List (Nat × (Form → Instr)) := [
  (0xE0, .bar),
  (0xE1, fun f => if f.b = 1 then .launchNb f else .launch f),
  (0xE2, .join),
  (0xE3, .cancel),
  (0xE4, .ccread),
  (0xE5, .yield),
  (0xE6, .lanepart),
  (0xE7, .coll),
  (0xE8, .xsend),
  (0xE9, .exit),
  (0xF0, .dload),
  (0xF1, .dsync),
  (0xF2, .dread),
  (0xF3, .sysrd),
  (0xF4, .syswr),
  (0xF5, .sysset),
  (0xF6, .sysclr),
  (0xF7, .svc),
  (0xF8, .trap),
  (0xF9, .tret),
  (0xFA, .tlbinv),
  (0xFB, .brkpt)]

/-- The instruction of a long opcode and its operand fields; none in a gap of the map. -/
def instrOf (opc : Nat) (f : Form) : Option Instr :=
  ((if opc < 0x40 then scalarCtors
    else if opc < 0x80 then vectorCtors
    else if opc < 0xA0 then functionCtors
    else if opc < 0xC0 then tileCtors
    else if opc < 0xE0 then memoryCtors
    else systemCtors).find? (fun r => r.1 == opc)).map (fun r => r.2 f)

/-- The long opcode and the operand fields of an instruction (R29, R39); none for a dictionary word and for an
event, which have none. -/
def longOf : Instr → Option (Nat × Form)
  | .udf _ => some (0x00, {})
  | .add f => some (0x01, f)
  | .addi f => some (0x01, f)
  | .sub f => some (0x02, f)
  | .and f => some (0x03, f)
  | .andi f => some (0x03, f)
  | .or f => some (0x04, f)
  | .ori f => some (0x04, f)
  | .xor f => some (0x05, f)
  | .xori f => some (0x05, f)
  | .shl f => some (0x06, f)
  | .shli f => some (0x06, f)
  | .shr f => some (0x07, f)
  | .shri f => some (0x07, f)
  | .sra f => some (0x08, f)
  | .srai f => some (0x08, f)
  | .mul f => some (0x09, f)
  | .muli f => some (0x09, f)
  | .mulh f => some (0x0A, f)
  | .mulhu f => some (0x0B, f)
  | .div f => some (0x0C, f)
  | .divu f => some (0x0D, f)
  | .rem f => some (0x0E, f)
  | .remu f => some (0x0F, f)
  | .slt f => some (0x10, f)
  | .slti f => some (0x10, f)
  | .sltu f => some (0x11, f)
  | .sltiu f => some (0x11, f)
  | .min f => some (0x12, f)
  | .max f => some (0x13, f)
  | .minu f => some (0x14, f)
  | .maxu f => some (0x15, f)
  | .clz f => some (0x16, f)
  | .ctz f => some (0x17, f)
  | .popc f => some (0x18, f)
  | .brev f => some (0x19, f)
  | .sel f => some (0x1A, f)
  | .fadd f => some (0x1B, f)
  | .fsub f => some (0x1C, f)
  | .fmul f => some (0x1D, f)
  | .fma f => some (0x1E, f)
  | .fdiv f => some (0x1F, f)
  | .fsqrt f => some (0x20, f)
  | .fmin f => some (0x21, f)
  | .fmax f => some (0x22, f)
  | .fcmp f => some (0x23, f)
  | .fcvt f => some (0x24, f)
  | .ficvt f => some (0x25, f)
  | .ifcvt f => some (0x26, f)
  | .ldhi f => some (0x27, f)
  | .addpc f => some (0x28, f)
  | .jal f => some (0x29, f)
  | .jalr f => some (0x2A, f)
  | .beq f => some (0x2B, f)
  | .bne f => some (0x2C, f)
  | .blt f => some (0x2D, f)
  | .bge f => some (0x2E, f)
  | .bltu f => some (0x2F, f)
  | .bgeu f => some (0x30, f)
  | .bp f => some (0x31, f)
  | .setvl f => some (0x40, f)
  | .setvli f => some (0x40, f)
  | .vcfg f => some (0x41, f)
  | .vsetty f => some (0x42, f)
  | .vadd f => some (0x43, f)
  | .vsub f => some (0x44, f)
  | .vmul f => some (0x45, f)
  | .vfma f => some (0x46, f)
  | .vfms f => some (0x47, f)
  | .vdiv f => some (0x48, f)
  | .vsqrt f => some (0x49, f)
  | .vmin f => some (0x4A, f)
  | .vmax f => some (0x4B, f)
  | .vabs f => some (0x4C, f)
  | .vneg f => some (0x4D, f)
  | .vand f => some (0x4E, f)
  | .vor f => some (0x4F, f)
  | .vxor f => some (0x50, f)
  | .vshl f => some (0x51, f)
  | .vshr f => some (0x52, f)
  | .vsra f => some (0x53, f)
  | .vcmp f => some (0x54, f)
  | .vsel f => some (0x55, f)
  | .vcvt f => some (0x56, f)
  | .vwid f => some (0x57, f)
  | .vnar f => some (0x58, f)
  | .vsplat f => some (0x59, f)
  | .vidx f => some (0x5A, f)
  | .vext f => some (0x5B, f)
  | .vins f => some (0x5C, f)
  | .vslide f => some (0x5D, f)
  | .vperm f => some (0x5E, f)
  | .vshape f => some (0x5F, f)
  | .vcompress f => some (0x60, f)
  | .vexpand f => some (0x61, f)
  | .vredsum f => some (0x62, f)
  | .vredtsum f => some (0x63, f)
  | .vredmax f => some (0x64, f)
  | .vredmin f => some (0x65, f)
  | .vscan f => some (0x66, f)
  | .vexpf f => some (0x67, f)
  | .vexpx f => some (0x68, f)
  | .vlogf f => some (0x69, f)
  | .vlogx f => some (0x6A, f)
  | .vrcpf f => some (0x6B, f)
  | .vrcpx f => some (0x6C, f)
  | .vrsqf f => some (0x6D, f)
  | .vrsqx f => some (0x6E, f)
  | .vsinf f => some (0x6F, f)
  | .vsinx f => some (0x70, f)
  | .vtanhf f => some (0x71, f)
  | .vtanhx f => some (0x72, f)
  | .pand f => some (0x73, f)
  | .por f => some (0x74, f)
  | .pxor f => some (0x75, f)
  | .pandn f => some (0x76, f)
  | .ppopc f => some (0x77, f)
  | .pfirst f => some (0x78, f)
  | .pbrk f => some (0x79, f)
  | .pfromx f => some (0x7A, f)
  | .vpfetch f => some (0x7B, f)
  | .vpjoin f => some (0x7C, f)
  | .vdot f => some (0x7D, f)
  | .fnset f => some (0x80, f)
  | .fnld f => some (0x81, f)
  | .fnst f => some (0x82, f)
  | .fnmov f => some (0x83, f)
  | .fnadd f => some (0x84, f)
  | .fnsub f => some (0x85, f)
  | .fnmul f => some (0x86, f)
  | .fnscl f => some (0x87, f)
  | .fnaxpy f => some (0x88, f)
  | .fndiff f => some (0x89, f)
  | .fnint f => some (0x8A, f)
  | .fnquad f => some (0x8B, f)
  | .fnproj f => some (0x8C, f)
  | .fnbasis f => some (0x8D, f)
  | .fntrace f => some (0x8E, f)
  | .fneval f => some (0x8F, f)
  | .fnlift f => some (0x90, f)
  | .fndeg f => some (0x91, f)
  | .fnnorm f => some (0x92, f)
  | .stl f => some (0xA0, f)
  | .tcfg f => some (0xA1, f)
  | .tzero f => some (0xA2, f)
  | .tld f => some (0xA3, f)
  | .tldf f => some (0xA4, f)
  | .tst f => some (0xA5, f)
  | .tstf f => some (0xA6, f)
  | .tmm f => some (0xA7, f)
  | .tlmm f => some (0xA8, f)
  | .tadd f => some (0xA9, f)
  | .trecomp f => some (0xAA, f)
  | .tdense f => some (0xAB, f)
  | .tcomp f => some (0xAC, f)
  | .tscale f => some (0xAD, f)
  | .tcvt f => some (0xAE, f)
  | .trank f => some (0xAF, f)
  | .tsync f => some (0xB0, f)
  | .ld f => some (0xC0, f)
  | .st f => some (0xC1, f)
  | .vld f => some (0xC2, f)
  | .vst f => some (0xC3, f)
  | .vldff f => some (0xC4, f)
  | .vldp f => some (0xC5, f)
  | .mfrset f => some (0xC6, f)
  | .sbind f => some (0xC7, f)
  | .sfree f => some (0xC8, f)
  | .copy f => some (0xC9, f)
  | .chsend f => some (0xCA, f)
  | .chrecv f => some (0xCB, f)
  | .chcfg f => some (0xCC, f)
  | .amoadd f => some (0xCD, f)
  | .amofadd f => some (0xCE, f)
  | .amomax f => some (0xCF, f)
  | .amomin f => some (0xD0, f)
  | .amoand f => some (0xD1, f)
  | .amoor f => some (0xD2, f)
  | .amoswap f => some (0xD3, f)
  | .amocas f => some (0xD4, f)
  | .amofmax f => some (0xD5, f)
  | .fence f => some (0xD6, f)
  | .waitc f => some (0xD7, f)
  | .tlwait f => some (0xD8, f)
  | .tlread f => some (0xD9, f)
  | .stend f => some (0xDA, f)
  | .bar f => some (0xE0, f)
  | .launch f => some (0xE1, f)
  | .launchNb f => some (0xE1, f)
  | .join f => some (0xE2, f)
  | .cancel f => some (0xE3, f)
  | .ccread f => some (0xE4, f)
  | .yield f => some (0xE5, f)
  | .lanepart f => some (0xE6, f)
  | .coll f => some (0xE7, f)
  | .xsend f => some (0xE8, f)
  | .exit f => some (0xE9, f)
  | .dload f => some (0xF0, f)
  | .dsync f => some (0xF1, f)
  | .dread f => some (0xF2, f)
  | .sysrd f => some (0xF3, f)
  | .syswr f => some (0xF4, f)
  | .sysset f => some (0xF5, f)
  | .sysclr f => some (0xF6, f)
  | .svc f => some (0xF7, f)
  | .trap f => some (0xF8, f)
  | .tret f => some (0xF9, f)
  | .tlbinv f => some (0xFA, f)
  | .brkpt f => some (0xFB, f)
  | .dictionaryWord _ _ _ _ => none
  | .stripAgeClose _ => none
  | .engineCommandIssue _ => none
  | .waitingContextReady _ => none
  | .vpGroupYield _ => none
  | .dictImageLoad _ => none
  | .streamReadAhead _ _ _ => none
  | .epochEnd _ _ => none
  | .copyStart _ _ => none
  | .copyComplete _ _ => none
  | .tileOperationFire _ => none
  | .tileOperationComplete _ => none
  | .engineFaultDelivery _ => none
  | .singleStepBreakpoint _ => none
  | .rprSuspWrite _ => none
  | .cpstatSuspWrite _ _ => none
  | .vtrWrite _ _ => none
  | .endunitWrite _ => none
  | .ctxtblKick _ => none
  | .unitPlacement _ _ => none
  | .threadStart _ => none
  | .priorityAging _ _ => none
  | .preemption _ => none
  | .quantumExpiry _ _ => none
  | .idleSwitchOut _ => none
  | .unitRestore _ _ => none
  | .reclaimDeadlineExpiry _ => none
  | .poolEntryQuarantineEnd _ _ => none
  | .adqtailWrite _ _ => none
  | .hostLaunchCommand _ => none
  | .hostReadCounterCommand _ => none
  | .hostCancelCommand _ => none
  | .hostJoinCommand _ => none
  | .hostJoinComplete _ _ => none
  | .hostCommandInvalid _ => none
  | .doorbellWrite _ _ => none
  | .xsendPacketArrival _ _ => none
  | .xsendLaunchAccept _ _ => none
  | .terminationRound _ _ _ => none
  | .jobCancelMessage _ _ => none
  | .collectiveMatch _ _ _ _ => none
  | .collectiveChunkFinal _ _ _ _ _ => none
  | .collectiveComplete _ _ _ => none
  | .collectivePatienceExpiry _ _ _ => none
  | .collectiveMemberLost _ _ _ => none
  | .portEnable _ => none
  | .lanesTrained _ => none
  | .keyAgreed _ _ _ _ => none
  | .peerAttestationFailure _ => none
  | .flitReceive _ _ => none
  | .flitResend _ => none
  | .retryWindowAcknowledged _ => none
  | .keyReagreement _ => none
  | .persistentLaneFailure _ => none
  | .linkFailure _ => none
  | .portRetrain _ => none
  | .ingressWrite _ _ => none
  | .egressLine _ _ => none
  | .sramCorrectedError _ _ _ => none
  | .sramUncorrectableError _ _ _ => none
  | .dramCorrectedError _ => none
  | .dramUncorrectableError _ => none
  | .partitionChange _ => none
  | .attestationReport _ _ _ => none
  | .powerOn _ => none
  | .railOutOfTolerance _ => none
  | .clockReduction _ _ => none
  | .clockRaise _ _ => none
  | .thermalShutdown _ => none
  | .stripStoresPerform _ _ => none
  | .groupRegistration _ _ _ _ => none
  | .cccfgWrite _ _ => none
  | .adqWrite _ _ => none

end Sys2Proof.Machine
end

