-- ==== Sys2Proof/Machine/Sha512.lean ====
section
/-! DEFINITION. SHA-512 (FIPS 180-4), the measurement of images and kernels (R316, R322), HMAC-SHA-512 (R3), and the line
guard (R344). -/

namespace Sys2Proof.Machine

/-- Round constants 0 to 39. -/
def shaK0 : List Nat := [
  0x428A2F98D728AE22, 0x7137449123EF65CD, 0xB5C0FBCFEC4D3B2F, 0xE9B5DBA58189DBBC,
  0x3956C25BF348B538, 0x59F111F1B605D019, 0x923F82A4AF194F9B, 0xAB1C5ED5DA6D8118,
  0xD807AA98A3030242, 0x12835B0145706FBE, 0x243185BE4EE4B28C, 0x550C7DC3D5FFB4E2,
  0x72BE5D74F27B896F, 0x80DEB1FE3B1696B1, 0x9BDC06A725C71235, 0xC19BF174CF692694,
  0xE49B69C19EF14AD2, 0xEFBE4786384F25E3, 0x0FC19DC68B8CD5B5, 0x240CA1CC77AC9C65,
  0x2DE92C6F592B0275, 0x4A7484AA6EA6E483, 0x5CB0A9DCBD41FBD4, 0x76F988DA831153B5,
  0x983E5152EE66DFAB, 0xA831C66D2DB43210, 0xB00327C898FB213F, 0xBF597FC7BEEF0EE4,
  0xC6E00BF33DA88FC2, 0xD5A79147930AA725, 0x06CA6351E003826F, 0x142929670A0E6E70,
  0x27B70A8546D22FFC, 0x2E1B21385C26C926, 0x4D2C6DFC5AC42AED, 0x53380D139D95B3DF,
  0x650A73548BAF63DE, 0x766A0ABB3C77B2A8, 0x81C2C92E47EDAEE6, 0x92722C851482353B]

/-- Round constants 40 to 79. -/
def shaK1 : List Nat := [
  0xA2BFE8A14CF10364, 0xA81A664BBC423001, 0xC24B8B70D0F89791, 0xC76C51A30654BE30,
  0xD192E819D6EF5218, 0xD69906245565A910, 0xF40E35855771202A, 0x106AA07032BBD1B8,
  0x19A4C116B8D2D0C8, 0x1E376C085141AB53, 0x2748774CDF8EEB99, 0x34B0BCB5E19B48A8,
  0x391C0CB3C5C95A63, 0x4ED8AA4AE3418ACB, 0x5B9CCA4F7763E373, 0x682E6FF3D6B2B8A3,
  0x748F82EE5DEFB2FC, 0x78A5636F43172F60, 0x84C87814A1F0AB72, 0x8CC702081A6439EC,
  0x90BEFFFA23631E28, 0xA4506CEBDE82BDE9, 0xBEF9A3F7B2C67915, 0xC67178F2E372532B,
  0xCA273ECEEA26619C, 0xD186B8C721C0C207, 0xEADA7DD6CDE0EB1E, 0xF57D4F7FEE6ED178,
  0x06F067AA72176FBA, 0x0A637DC5A2C898A6, 0x113F9804BEF90DAE, 0x1B710B35131C471B,
  0x28DB77F523047D84, 0x32CAAB7B40C72493, 0x3C9EBE0A15C9BEBC, 0x431D67C49C100D4C,
  0x4CC5D4BECB3E42B6, 0x597F299CFC657E2A, 0x5FCB6FAB3AD6FAEC, 0x6C44198C4A475817]

/-- The initial hash value. -/
def shaH0 : List Nat := [
  0x6A09E667F3BCC908, 0xBB67AE8584CAA73B, 0x3C6EF372FE94F82B, 0xA54FF53A5F1D36F1,
  0x510E527FADE682D1, 0x9B05688C2B3E6C1F, 0x1F83D9ABFB41BD6B, 0x5BE0CD19137E2179]

/-- A 64-bit word rotated right. -/
def rotr64 (x n : Nat) : Nat := (x >>> n) + x % 2 ^ n * 2 ^ (64 - n)

/-- Exclusive or of three words. -/
def xor3 (a b c : Nat) : Nat := Nat.xor (Nat.xor a b) c

/-- The next word of the message schedule, from the last sixteen, latest first. -/
def shaNextW (w : List Nat) : Nat :=
  let w2 := w.getD 1 0
  let w7 := w.getD 6 0
  let w15 := w.getD 14 0
  let w16 := w.getD 15 0
  let s1 := xor3 (rotr64 w2 19) (rotr64 w2 61) (w2 >>> 6)
  let s0 := xor3 (rotr64 w15 1) (rotr64 w15 8) (w15 >>> 7)
  (s1 + w7 + s0 + w16) % 2 ^ 64

/-- The schedule extended by `n` words, latest first. -/
def shaSchedule : Nat → List Nat → List Nat
  | 0, w => w
  | n + 1, w => shaSchedule n (shaNextW w :: w)

/-- One round on the eight working variables. -/
def shaRound (v : List Nat) (k w : Nat) : List Nat :=
  match v with
  | [a, b, c, d, e, f, g, h] =>
    let s1 := xor3 (rotr64 e 14) (rotr64 e 18) (rotr64 e 41)
    let ch := Nat.xor (Nat.land e f) (Nat.land (2 ^ 64 - 1 - e) g)
    let t1 := (h + s1 + ch + k + w) % 2 ^ 64
    let s0 := xor3 (rotr64 a 28) (rotr64 a 34) (rotr64 a 39)
    let maj := xor3 (Nat.land a b) (Nat.land a c) (Nat.land b c)
    let t2 := (s0 + maj) % 2 ^ 64
    [(t1 + t2) % 2 ^ 64, a, b, c, (d + t1) % 2 ^ 64, e, f, g]
  | _ => v

/-- All rounds, over the constants and the schedule in order. -/
def shaRounds : List Nat → List Nat → List Nat → List Nat
  | k :: ks, w :: ws, v => shaRounds ks ws (shaRound v k w)
  | _, _, v => v

/-- One block of sixteen words absorbed. -/
def shaBlock (h : List Nat) (ws : List Nat) : List Nat :=
  let sched := (shaSchedule 64 ws.reverse).reverse
  let v := shaRounds (shaK0 ++ shaK1) sched h
  (h.zip v).map (fun p => (p.1 + p.2) % 2 ^ 64)

/-- The number whose big-endian bytes are given. -/
def beValue (bs : List Byte) : Nat := bs.foldl (fun acc b => acc * 256 + b.toNat) 0

/-- The first `n` blocks of sixteen big-endian doublewords absorbed. -/
def shaBlocks : Nat → List Nat → List Byte → List Nat
  | 0, h, _ => h
  | n + 1, h, bs =>
    let ws := (List.range 16).map (fun i => beValue ((bs.drop (8 * i)).take 8))
    shaBlocks n (shaBlock h ws) (bs.drop 128)

/-- The padded message. -/
def shaPad (bs : List Byte) : List Byte :=
  let len := bs.length
  let zeros := (128 - (len + 17) % 128) % 128
  bs ++ [0x80] ++ List.replicate zeros 0 ++ (leBytes 16 (8 * len)).reverse

/-- SHA-512 of a byte string, as its 64 bytes. -/
def sha512 (bs : List Byte) : List Byte :=
  let m := shaPad bs
  (shaBlocks (m.length / 128) shaH0 m).flatMap (fun w => (leBytes 8 w).reverse)

/-- HMAC with SHA-512 (RFC 2104) of a message under a key. -/
def hmac512 (key msg : List Byte) : List Byte :=
  let k := ((if 128 < key.length then sha512 key else key) ++ List.replicate 128 0).take 128
  sha512 (k.map (fun b => b ^^^ 0x5C) ++ sha512 (k.map (fun b => b ^^^ 0x36) ++ msg))

/-- One bit of the CRC with polynomial 0x8BB7, most significant bit first. -/
def crcBit (crc : Nat) : Nat :=
  if crc ≥ 2 ^ 15 then Nat.xor (crc * 2 % 2 ^ 16) 0x8BB7 else crc * 2

/-- The CRC after `n` more bits. -/
def crcBits : Nat → Nat → Nat
  | 0, crc => crc
  | n + 1, crc => crcBits n (crcBit crc)

/-- CRC-16/T10-DIF of a byte string: the guard of a line (R344). -/
def crc16 (bs : List Byte) : Nat :=
  bs.foldl (fun crc b => crcBits 8 (Nat.xor crc (b.toNat * 256))) 0

end Sys2Proof.Machine
end

