-- ==== Sys2Proof/Machine/State.lean ====
section
/-! DEFINITION. The state of the Evael X4: everything the spec gives the machine, as plain data.

One thread is the current one: `t`, in its unit `u`, is held apart from the other threads and units, so that an
instruction reads and writes it directly. `agenda` lists which agent moves next; it is the model's own (log entry 4).
Memory is a list of cells in rising order of addresses that lists no byte equal to what an unlisted byte reads as. -/

namespace Sys2Proof.Machine

open Sys2Proof

/-- The privilege modes (R307). -/
inductive Mode where
  | user
  | super
  deriving DecidableEq, Repr

/-- A function register (R129): its shape, element count and coefficients, element-major (R134). `d` 0 is empty. -/
structure FnReg where
  d : Nat
  p : Nat
  nodal : Bool
  f64 : Bool
  nelem : Nat
  gran : Nat
  coefs : List Nat
  deriving DecidableEq, Repr

/-- A stream register (R224), and the elements read ahead of consumption (R227) as (index, value, location). -/
structure Stream where
  base : W64
  word : W64
  cons : Nat
  ahead : List (Nat × Nat × Nat)
  deriving DecidableEq, Repr

/-- The VP divergence state (R127): the PC of each element, the running VPs and the running group as bit sets. -/
structure Vp where
  vpc : List W64
  run : Nat
  joinPc : W64
  group : Nat
  count : Nat
  deriving DecidableEq, Repr

/-- What the strip checkpoint holds (R85, R162). -/
structure Arch where
  pc : W64
  x : Vector W64 64
  /-- the vector registers, each as the number its bits form (R88) -/
  v : List Nat
  /-- the predicates, each as a bit set -/
  p : Vector Nat 96
  fn : Vector FnReg 16
  sm : Vector Stream 8
  vtr : W64
  vl : Nat
  vfill : W64
  mfr : W64
  seed : W64
  vnreg : Nat
  ffvl : Nat
  tgrant : W64
  /-- R64: RSR-rounding instructions since the last `setvl`, modulo 65,536 -/
  ordinal : Nat
  /-- R65 -/
  stripSeq : Nat
  vp : Option Vp
  deriving DecidableEq, Repr

/-- A byte of a buffered store: where it goes and which bits it writes (R218). -/
structure StoreByte where
  loc : Nat
  val : Byte
  mask : Byte
  deriving DecidableEq, Repr

/-- A translation that a buffered store holds pinned (R210): the ASID, the level of its leaf, the number of its page, and how
many removals by `tlbinv` its partition had seen when it was taken. -/
structure Pin where
  asid : Nat
  level : Nat
  vpn : Nat
  age : Nat
  deriving DecidableEq, Repr

/-- One store instruction's effect in the strip store buffer, element by element in ascending index (R209). Class 16
marks the slot bytes of a `chsend` (R187). -/
structure Store where
  cls : Nat
  elems : List (List StoreByte)
  /-- the 64-byte lines that the whole store covers (R342, R344) -/
  full : List Nat
  /-- the translations that it holds pinned until it has performed (R210) -/
  pins : List Pin
  deriving DecidableEq, Repr

/-- An engine command (R237): a copy, a collective or an `xsend` packet, with its records as read. -/
inductive Cmd where
  | copy (tl : Nat) (dst src : List Byte) (cls : Nat)
  /-- with the die that its descriptor was checked on (R302) -/
  | coll (gl : Nat) (desc : List Byte) (die : Nat)
  | xsend (rank : Nat) (p : Packet)
  deriving DecidableEq, Repr

/-- What a strip holds in program order: stores, and the fences between them (R247). -/
inductive StripItem where
  | store (s : Store)
  | fence (mask : Nat)
  deriving DecidableEq, Repr

/-- The open strip (R237 to R241). -/
structure Strip where
  /-- how it opened, as sfi.OPENED codes it (R241) -/
  opened : Nat
  items : List StripItem
  cmds : List Cmd
  /-- slots sent and received on each channel, not yet committed (R187) -/
  sent : Vector Nat 16
  recvd : Vector Nat 16
  /-- function registers written in the strip (R144) -/
  fnWritten : List Nat
  deriving DecidableEq, Repr

/-- A committed effect that has not performed yet (R237). -/
inductive Pending where
  | store (s : Store)
  | fence (mask : Nat)
  /-- an engine command; a copy has the number that its strip's commit gave it on its timeline (R232), another command 0 -/
  | cmd (num : Nat) (c : Cmd)
  | slots (ch sent recvd : Nat)
  /-- a tile operation's issue: a release of the stores before it (R165) -/
  | tile (num : Nat)
  deriving DecidableEq, Repr

/-- The operation of an AMO (R246). -/
inductive AmoOp where
  | add | fadd | max | min | and | or | swap | cas | fmax
  deriving DecidableEq, Repr

/-- What waits for the end of an epoch of a DET launch: a store or an AMO (R81, R82), or an engine command, the advance of
channel slots or the issue of a tile operation behind such a store (R237, R165). -/
inductive DetItem where
  | store (s : Store)
  | amo (op : AmoOp) (loc width ty : Nat) (v expected : Nat) (pins : List Pin)
  | cmd (num : Nat) (c : Cmd)
  | slots (ch sent recvd : Nat)
  | tile (num : Nat)
  deriving DecidableEq, Repr

/-- What a waiting context waits for (R276, R164). -/
inductive Wait where
  | none
  /-- the barrier generation at which the thread has arrived (R279) -/
  | bar (gen : Nat)
  /-- a counter (R281); its status word once the launch that it names has completed -/
  | counter (handle : W64) (final : Option W64)
  /-- a pool entry for the record as read, and the launch's release (R264, R280) -/
  | pool (record : List Byte)
  /-- a timeline code and a value (R250) -/
  | timeline (code : Nat) (v : Nat)
  /-- limits on outstanding loads, stores, copies and tile operations (R249) -/
  | outstanding (nl ns nc nt : Nat)
  /-- a free slot at a position beyond the committed ones of a channel (R187) -/
  | chanFree (ch : Nat)
  /-- a published slot (R187) -/
  | chanFull (ch : Nat)
  /-- the end of an epoch of the launch (R81) -/
  | epoch (n : Nat)
  /-- room for a further tile operation (R163) -/
  | tileRoom
  /-- every access that pins a translation that a `tlbinv` has removed, by its operands X[a] and X[b] and the number of its
  removal (R325) -/
  | pins (a b : W64) (n : Nat)
  /-- that every store and engine command of the thread has performed or issued (R248) -/
  | performed
  /-- its start: the unit has been placed and the thread has not begun (R261) -/
  | start
  deriving DecidableEq, Repr

/-- A thread context (R85, R161, R327). -/
structure Thread where
  live : Bool
  slot : Nat
  mode : Mode
  arch : Arch
  ckpt : Arch
  strip : Strip
  performing : List Pending
  spc : W64
  sfi : W64
  tvec : W64
  tstat : W64
  tpc : W64
  tcause : W64
  tval : W64
  telem : Nat
  tscr0 : W64
  tscr1 : W64
  /-- the dictionary (R32), its state (R34), whether the image load at thread start is pending (R33) -/
  dict : Vector W64 256
  dictLoading : Bool
  dictPending : Bool
  /-- the last loaded image, for its measurement (R316) -/
  image : Option (List Byte)
  /-- lpr (R271) -/
  own : Nat
  pend : Nat
  dem : Nat
  /-- the L of R88 in force since the last `setvl` (R273, R341) -/
  lanes : Nat
  /-- pool.NEED (R145) -/
  poolNeed : Nat
  /-- MCC control registers (R169) -/
  ttol : W64
  tsweep : Nat
  tmode : W64
  tileNeed : Nat
  wait : Wait
  /-- the divergence of R127 that each trap entry put aside, the latest first, with the mode it was entered from (log
  entry 31) -/
  vpHeld : List (Mode × Option Vp)
  /-- a single step to be trapped (R335): armed by `tret`, due after one instruction -/
  stepArmed : Bool
  stepDue : Bool
  /-- epoch fences executed in a DET launch (R81), and the items of each epoch that has not ended -/
  epoch : Nat
  wcb : List (Nat × DetItem)
  /-- switched out by rollback, and its strip has not closed since (R274) -/
  noRollback : Bool
  /-- switched out alone by the fallback of R273 -/
  away : Bool
  /-- the open strip is discarded at restore (R325) -/
  discard : Bool
  /-- the age of the strip since its checkpoint, in tenths of a cycle of the arithmetic clock (R240, R351) -/
  stripAge : Nat
  /-- when PEND was set (R273), in ns -/
  pendAt : Nat
  /-- the word under execution, as tval reports it (R35); the model's own -/
  iword : W64
  deriving DecidableEq, Repr

/-- A channel (R182): its configuration, committed positions, and the slots that fired operations have claimed (R184). -/
structure Chan where
  base : Nat
  scount : Nat
  ssize : Nat
  full : Nat
  prod : Nat
  cons : Nat
  ppos : Nat
  cpos : Nat
  claimedIn : Nat
  claimedOut : Nat
  deriving DecidableEq, Repr

/-- A tile header (R166): `kind` 0 empty, 1 dense, 2 factored. -/
structure TileHdr where
  kind : Nat
  m : Nat
  n : Nat
  rank : Nat
  ftype : Nat
  int64 : Bool
  deriving DecidableEq, Repr

/-- A tile's contents: dense accumulators row by row, or the factors U and V row by row (R166). -/
structure TileBody where
  hdr : TileHdr
  acc : List Nat
  u : List Nat
  v : List Nat
  deriving DecidableEq, Repr

/-- A tile operation (R163) with its operands as read at issue (R165, R204). -/
structure TileOp where
  num : Nat
  opc : Nat
  td : Nat
  ta : Nat
  tb : Nat
  hdr : TileHdr
  gm : Nat
  gn : Nat
  gk : Nat
  /-- `.z` of `tmm` -/
  z : Bool
  fmt : Nat
  cls : Nat
  descA : List Byte
  descB : List Byte
  /-- a scalar operand: σ of `tcvt`, the factor of `tscale` -/
  val : W64
  rnd : Nat
  seed : W64
  c0hi : Nat
  stripSeq : Nat
  rcap : Nat
  policy : Nat
  tabs : Bool
  ttol : W64
  sweeps : Nat
  fired : Bool
  row : Nat
  /-- every row has performed -/
  done : Bool
  deriving DecidableEq, Repr

/-- A suspension of an engine context: what the fault reports (R176, R233). -/
structure Suspend where
  sub : Nat
  tval : W64
  telem : Nat
  /-- the slot of the thread that issued the work -/
  issuer : Nat
  /-- the fault has been delivered and not yet resumed -/
  delivered : Bool
  deriving DecidableEq, Repr

/-- A copy command in the engine (R232). -/
structure Copy where
  tl : Nat
  num : Nat
  dst : List Byte
  src : List Byte
  cls : Nat
  issuer : Nat
  started : Bool
  done : Nat
  /-- every element has performed -/
  ended : Bool
  /-- where source and destination meet, the bytes that the copy has overwritten, as they were (R231) -/
  saved : List (Nat × Byte)
  deriving DecidableEq, Repr

/-- A line of the cluster cache (R243), by the number of the line. -/
structure CacheLine where
  line : Nat
  bytes : List Byte
  deriving DecidableEq, Repr

/-- A unit (R254, R255): placed on a cluster, or switched out. -/
structure UnitCtx where
  /-- the model's number of the unit; 0 names no unit -/
  uid : Nat
  part : Nat
  entry : Nat
  gen : Nat
  index : Nat
  cluster : Option Nat
  /-- time of the last placement, ns (R269) -/
  since : Nat
  /-- `yield` has made the unit a quantum victim (R284) -/
  yielding : Bool
  /-- switched out to make room: the acceptance order of the launch that goes first, and its unit's index (R269) -/
  behind : Option (Nat × Nat)
  threads : List Thread
  csp : List Host.Cell
  /-- the scratchpad as its frame took it at the switch-out: what the unit's buffers have brought to it since then comes to
  the restored one too (R81, R340); the model's own -/
  cspSaved : List Host.Cell
  chans : Vector Chan 16
  /-- headers in issue order (R164), and the contents as the completed operations left them -/
  hdrs : Vector TileHdr 16
  tiles : Vector TileBody 16
  ops : List TileOp
  tl15Issued : Nat
  tl15 : Nat
  /-- rpr (R169): the suspension, and whether an operation is stopped by a switch-out -/
  tsusp : Option Suspend
  tstop : Bool
  /-- copies issued on each timeline, and the number that the timeline has reached (R232) -/
  tlIssued : Vector Nat 15
  tl : Vector Nat 15
  copies : List Copy
  /-- CPSTATn (R233) -/
  csusp : Vector (Option Suspend) 15
  /-- engine faults of collectives, by timeline gl0 to gl7 (R303) -/
  gsusp : Vector (Option Suspend) 8
  barGen : Nat
  arrived : List Nat
  cache : List CacheLine
  deriving DecidableEq, Repr

/-- A launch above another: its pool entry and GEN, and the graph and phase that it carries (R263). -/
structure Ancestor where
  entry : Nat
  gen : Nat
  graph : Nat
  phase : Nat
  deriving DecidableEq, Repr

/-- A launch that holds a pool entry (R258, R264). -/
structure Launch where
  entry : Nat
  gen : Nat
  job : Nat
  depth : Nat
  /-- the record as read (R260) -/
  record : List Byte
  /-- the launching unit's partition-wide number, for waits on its timelines; 0 for none -/
  parentUid : Nat
  /-- pool entry and GEN of the parent launch, when this launch counts for it (R254) -/
  parent : Option (Nat × Nat)
  /-- the launching thread's launch and its ancestors (R263) -/
  ancestors : List Ancestor
  order : Nat
  outstanding : Nat
  completed : Nat
  canc : Bool
  fault : Bool
  nextUnit : Nat
  /-- dependence waits on launches that have completed with the count that the wait asks for (R260), a bit each -/
  met : Nat
  /-- the time it has spent ready with a unit unplaced, in ns (R268); the frozen effective priority -/
  waited : Nat
  frozen : Option Nat
  /-- the die of the launching thread, for waits on gl0 to gl7 (R260, R298) -/
  glDie : Nat
  /-- termination detection has released its phase (R259, R305) -/
  released : Bool
  /-- accepted from the command ring: SEQ of its kind-1 journal entry (R278) -/
  jseq : Nat
  /-- a DET launch's ended epochs (R81) -/
  epochs : Nat
  /-- what waits in the buffers of its units that are complete, by logical thread id (R81) -/
  leftover : List (Nat × List (Nat × DetItem))
  /-- final values of the timelines tl0 to tl15 of the launching unit once it has completed (R260) -/
  finalTl : Option (List Nat)
  deriving DecidableEq, Repr

/-- A graph or a phase of a job (R258). -/
structure Counter where
  num : Nat
  outstanding : Nat
  completed : Nat
  canc : Bool
  fault : Bool
  deriving DecidableEq, Repr

/-- What one termination round found (R304, R305), and whether it concluded: it decided all that it was asked. -/
structure Round where
  counts : List RankCount
  concluded : Bool
  deriving DecidableEq, Repr

/-- A job (R315), its counters (R258), groups (R298) and packet counts (R304). -/
structure Job where
  id : Nat
  root : W64
  par : W64
  meas : W64
  outstanding : Nat
  completed : Nat
  canc : Bool
  fault : Bool
  graphs : List Counter
  phases : List Counter
  /-- this device's rank in the job (R286, R304) -/
  rank : Nat
  ranks : List Nat
  sent : List (Nat × Nat)
  recvd : List (Nat × Nat)
  groups : List (Nat × List Member)
  /-- the job's other devices, each as its rank and the device (R294, R298) -/
  devices : List (Nat × Nat)
  /-- gl0 to gl7 of each die: issued and completed numbers (R298, R302), dies 0 to 3 in order -/
  glIssued : List (Vector Nat 8)
  gl : List (Vector Nat 8)
  lastRound : Option Round
  /-- termination detection has found the job complete (R304); never cleared (R258) -/
  complete : Bool
  deriving DecidableEq, Repr

/-- A collective command issued on a die of this device (R302). -/
structure Coll where
  job : Nat
  gl : Nat
  num : Nat
  die : Nat
  /-- the issuing unit and thread slot -/
  uid : Nat
  slot : Nat
  desc : List Byte
  /-- when it was matched or its last chunk became final, in ns (R303) -/
  since : Nat
  /-- matched and running; the next chunk; the final code of a mismatch -/
  running : Bool
  chunk : Nat
  code : Nat
  deriving DecidableEq, Repr

/-- A cached translation (R314): whose cache holds it (a cluster, or 128 + d for the engines of die d), the ASID, the
page number for the page's size, and the leaf entry. -/
structure TlbEntry where
  agent : Nat
  asid : Nat
  level : Nat
  vpn : Nat
  leaf : W64
  deriving DecidableEq, Repr

/-- A host join that waits without holding the ring (R278). -/
structure HostJoin where
  slot : Nat
  job : Nat
  handle : W64
  /-- the status word of the joined launch once it has completed -/
  final : Option W64
  deriving DecidableEq, Repr

/-- An entry of the context table as Hornbeam last read it (R337). -/
structure CtxEntry where
  frame : Nat
  state : Nat
  kind : Nat
  flags : Nat
  slot : Nat
  handle : Nat
  unit : Nat
  deriving DecidableEq, Repr

/-- One partition (R317): its device registers, jobs, launches and engines. The partition's number is its lowest die. -/
structure PartState where
  hbcfg : W64
  fabcfg : W64
  jobsel : W64
  tvecdef : W64
  jrnBase : Nat
  jrnHead : Nat
  ctxtbl : W64
  adq : W64
  adqTail : Nat
  adqHead : Nat
  hostJoins : List HostJoin
  jobs : List Job
  launches : List Launch
  gens : List (Nat × Nat)
  /-- quarantined entries, each with the time of its release in ns (R257) -/
  quarantine : List (Nat × Nat)
  orders : Nat
  tlb : List TlbEntry
  /-- removals of translations by `tlbinv` so far -/
  removals : Nat
  ctx : List CtxEntry
  packets : List Packet
  sentOut : List (Nat × Packet)
  /-- cancel messages sent through Shawm, as (rank, job) (R306) -/
  cancelOut : List (Nat × Nat)
  colls : List Coll
  /-- the arithmetic clock in 100 MHz units, when it last changed, in ns, and its reductions since boot (R350, R352) -/
  clk : Nat
  clkAt : Nat
  thr : Nat
  deriving DecidableEq, Repr

/-- A flit in a retry window: how often it has been sent since its port last entered up (R295), and its place in a long-haul
port's retry buffer (R292; log entry 28). -/
structure SentFlit where
  flit : Flit
  sends : Nat
  slot : Nat
  deriving DecidableEq, Repr

/-- An Isapel port (R292 to R295). -/
structure Port where
  part : Nat
  state : Nat
  /-- the peer device, once a key has been agreed with it -/
  peer : Option Nat
  retries : Nat
  rtt : Nat
  tier : Nat
  keyep : Nat
  half : Bool
  tagFails : Nat
  retrains : Nat
  /-- the retry window: flits sent and not acknowledged -/
  window : List SentFlit
  txSeq : Nat
  rxSeq : Nat
  /-- flits sent under the session key (R293) -/
  keyed : Nat
  received : List Flit
  deriving DecidableEq, Repr

/-- A compute die's temperature and corrected errors (R343, R352). -/
structure DieState where
  /-- the hottest junction, in degrees -/
  temp : Nat
  /-- corrected errors since boot -/
  corr : Nat
  deriving DecidableEq, Repr

/-- A firmware image in flash: the application die's firmware, the compute dies' with its signature, Ranistam, and the signature
of the image (R3, R353). -/
structure FwImage where
  app : List Byte
  comp : List Byte
  compSig : List Byte
  ran : List Byte
  sig : List Byte
  deriving DecidableEq, Repr

/-- The HMAC-SHA-512 tags of flash's records: the health record, the lists of retired lanes and retired frames, and the
partition configuration (R3). -/
structure FlashTags where
  health : List Byte
  lanes : List Byte
  frames : List Byte
  config : List Byte
  deriving DecidableEq, Repr

/-- What the flash keeps (R3, R341 to R343, R353). -/
structure Flash where
  imageA : FwImage
  imageB : FwImage
  config : Nat
  repl : Bool
  /-- retired lanes as (core number, lane) and retired frames by frame number -/
  lanes : List (Nat × Nat)
  frames : List Nat
  tags : FlashTags
  deriving DecidableEq, Repr

/-- Which agent moves next, with what the outside brings (log entry 4). -/
inductive Turn where
  /-- the named thread comes to its next instruction boundary -/
  | issue (t : Tid)
  /-- an event of the table -/
  | event (e : Instr)
  /-- bring-up does the work of the stage that it is in (R353) -/
  | boot
  /-- up to `n` further rows of the tile operation in progress of a unit perform (R176, R177) -/
  | tileRows (uid n : Nat)
  /-- the factory fills the fuse array and the flash, before the first bring-up (R3, R322) -/
  | manufacture (key : List Byte) (flash : Flash)
  /-- the application-die firmware writes firmware image B, or A, into flash (R3) -/
  | flashImage (b : Bool) (image : FwImage)
  /-- the application die writes DRAM -/
  | appWrite (pa : Nat) (bytes : List Byte)
  /-- Ranistam maps, or unmaps, a 64 KiB page for the devices behind a root port (R355) -/
  | ioMap (port page : Nat) (on : Bool)
  /-- the hottest junction of a die is so warm, below 115 degrees (R350, R352) -/
  | temperature (die temp : Nat)
  /-- the cluster cache of a unit drops a line (R243) -/
  | evictLine (uid line : Nat)
  /-- the translation caches of a partition drop an entry (R314) -/
  | evictTlb (part k : Nat)
  /-- time passes, in ns -/
  | tick (ns : Nat)
  deriving DecidableEq, Repr

/-- The machine. -/
structure State where
  /-- the current thread; not live when there is none -/
  t : Thread
  /-- its unit, without `t` among its threads; `uid` 0 when there is none -/
  u : UnitCtx
  units : List UnitCtx
  parts : Vector PartState 4
  ports : Vector Port 16
  /-- CCCFG of each cluster that differs from 0, as (cluster, SIZE) (R207) -/
  cccfg : List (Nat × Nat)
  mem : List Host.Cell
  /-- poisoned lines (R342), and the guards of lines whose guard is not the CRC of the line (R344) -/
  poison : List Nat
  guards : List (Nat × Nat)
  /-- corrected errors of DRAM frames since power-on (R342), and of register slices, each with its age in tenths of a
  cycle of the arithmetic clock (R341) -/
  frameErrors : List (Nat × Nat)
  laneErrors : List ((Nat × Nat) × Nat)
  dies : Vector DieState 4
  /-- the 64 KiB pages mapped for each root port 0 to 3 (R355) -/
  ioMap : List (Nat × Nat)
  powered : Bool
  stage : Nat
  /-- what bring-up finds at its stages (R353) -/
  boot : Option BootInput
  image : Nat
  bootFail : Bool
  capptr : Nat
  config : Nat
  flash : Flash
  /-- the public key of firmware images, in the fuse array (R3) -/
  fuseKey : List Byte
  mapp : List Byte
  mcomp : List Byte
  mran : List Byte
  attSeq : Nat
  reports : List (List Byte)
  /-- management commands that Ranistam has received through BAR2 (R356) -/
  doorbells : List (Nat × W64)
  time : Nat
  nextUid : Nat
  /-- the model's counter of free values (log entry 5) -/
  freeCtr : Nat
  agenda : List Turn
  deriving DecidableEq, Repr

/-- Why the machine has no next state. -/
inductive Fault where
  /-- A rail is out of tolerance or the package is switched off (R349, R350): no state survives, and nothing executes.
  Raised by `step` and by every meaning but POWER_ON; safe. -/
  | powerOff
  /-- The package is halted at a stage of bring-up with every compute die in reset (R353). Raised by `step`; safe. -/
  | bootHalted
  /-- A meaning was asked to act for a thread, unit, partition or port that does not exist, or an event whose condition
  does not hold (log entry 6). Raised by the meanings of instructions and events; safe. -/
  | noSuchAgent
  deriving DecidableEq, Repr

/-- Why an instruction has no meaning in the model. -/
inductive Refusal where
  /-- No meaning has been written for the instruction. Raised by `exec` only; safe. -/
  | notModelled (mnemonic : String)
  deriving DecidableEq, Repr

/-- An empty function register (R129). -/
def FnReg.empty : FnReg := { d := 0, p := 0, nodal := false, f64 := false, nelem := 0, gran := 0, coefs := [] }

/-- An unbound stream register (R224). -/
def Stream.unbound : Stream := { base := 0, word := 0, cons := 0, ahead := [] }

/-- The registers of a thread before any configuration: vtr at its reset value (R86). -/
def Arch.zero : Arch :=
  { pc := 0, x := Vector.replicate 64 0, v := [], p := Vector.replicate 96 0, fn := Vector.replicate 16 .empty,
    sm := Vector.replicate 8 .unbound, vtr := 0x00034002, vl := 0, vfill := 0, mfr := 0, seed := 0, vnreg := 0,
    ffvl := 0, tgrant := 0, ordinal := 0, stripSeq := 0, vp := none }

/-- A strip that holds nothing, opened as the code says (R241). -/
def Strip.empty (opened : Nat) : Strip :=
  { opened, items := [], cmds := [], sent := Vector.replicate 16 0, recvd := Vector.replicate 16 0, fnWritten := [] }

/-- The marker of an undefined dictionary entry (R32). -/
def undefinedEntry : W64 := 0xFFFFFFFFFFFFFFFF

/-- No thread: slot 16 names none. -/
def Thread.none : Thread :=
  { live := false, slot := 16, mode := .user, arch := .zero, ckpt := .zero, strip := .empty 5, performing := [],
    spc := 0, sfi := 0, tvec := 0, tstat := 0, tpc := 0, tcause := 0, tval := 0, telem := 0, tscr0 := 0, tscr1 := 0,
    dict := Vector.replicate 256 undefinedEntry, dictLoading := false, dictPending := false, image := Option.none,
    own := 0, pend := 0, dem := 0, lanes := 8, poolNeed := 0, ttol := 0, tsweep := 6, tmode := 0x4000, tileNeed := 0,
    wait := .none, vpHeld := [], stepArmed := false, stepDue := false, epoch := 0, wcb := [], noRollback := false, away := false,
    discard := false, stripAge := 0, pendAt := 0, iword := 0 }

/-- An unconfigured channel (R182, R186). -/
def Chan.unconfigured : Chan :=
  { base := 0, scount := 0, ssize := 0, full := 0, prod := 0xFF, cons := 0xFF, ppos := 0, cpos := 0,
    claimedIn := 0, claimedOut := 0 }

/-- The header of an empty tile (R166). -/
def TileHdr.empty : TileHdr := { kind := 0, m := 0, n := 0, rank := 0, ftype := 0, int64 := false }

/-- An empty tile. -/
def TileBody.empty : TileBody := { hdr := .empty, acc := [], u := [], v := [] }

/-- A unit with its cluster's state zeroed (R320) and no thread; number 0 names no unit. -/
def UnitCtx.empty : UnitCtx :=
  { uid := 0, part := 0, entry := 0, gen := 0, index := 0, cluster := none, since := 0, yielding := false, behind := none, threads := [],
    csp := [], cspSaved := [], chans := Vector.replicate 16 .unconfigured, hdrs := Vector.replicate 16 .empty,
    tiles := Vector.replicate 16 .empty, ops := [], tl15Issued := 0, tl15 := 0, tsusp := none, tstop := false,
    tlIssued := Vector.replicate 15 0, tl := Vector.replicate 15 0, copies := [], csusp := Vector.replicate 15 none,
    gsusp := Vector.replicate 8 none, barGen := 0, arrived := [], cache := [] }

/-- A partition's registers at power-on: HBCFG.RDL 20, FABCFG.PATIENCE 50, JRNHEAD 1, the arithmetic clock at 1.7 GHz (R352)
and the rest 0. -/
def PartState.reset : PartState :=
  { hbcfg := 20, fabcfg := 50, jobsel := 0, tvecdef := 0, jrnBase := 0, jrnHead := 1, ctxtbl := 0,
    adq := 0, adqTail := 0, adqHead := 0, hostJoins := [], jobs := [], launches := [], gens := [],
    quarantine := [], orders := 0, tlb := [], removals := 0, ctx := [], packets := [], sentOut := [], cancelOut := [], colls := [], clk := 17,
    clkAt := 0, thr := 0 }

/-- A port that is down (R294). -/
def Port.down : Port :=
  { part := 0, state := 0, peer := none, retries := 0, rtt := 0, tier := 0, keyep := 0, half := false, tagFails := 0,
    retrains := 0, window := [], txSeq := 0, rxSeq := 0, keyed := 0, received := [] }

/-- A die at power-on (R343, R352). -/
def DieState.reset : DieState := { temp := 0, corr := 0 }

/-- No firmware. -/
def FwImage.empty : FwImage := { app := [], comp := [], compSig := [], ran := [], sig := [] }

/-- Flash that nothing has been written to (log entry 3). -/
def Flash.empty : Flash :=
  { imageA := .empty, imageB := .empty, config := 0, repl := false, lanes := [], frames := []
    tags := { health := [], lanes := [], frames := [], config := [] } }

/-- The machine right after power-on: powered, before the first stage of bring-up, no unit resident (R353, R354).
What flash and the fuses hold is a choice (log entry 3), and so is what an unlisted byte of DRAM reads as (log entry 2). -/
def State.reset : State :=
  { t := .none, u := .empty, units := [], parts := Vector.replicate 4 .reset, ports := Vector.replicate 16 .down,
    cccfg := [], mem := [], poison := [], guards := [], frameErrors := [], laneErrors := [], dies := Vector.replicate 4 .reset, ioMap := [],
    powered := true, stage := 0, boot := none, image := 0, bootFail := false, capptr := 0, config := 0,
    flash := .empty, fuseKey := List.replicate 32 0, mapp := [], mcomp := [], mran := [], attSeq := 0, reports := [], doorbells := [], time := 0, nextUid := 1, freeCtr := 0, agenda := [] }

end Sys2Proof.Machine
end

