-- ==== Sys2Proof/Machine/Ops.lean ====
section
/-! DEFINITION. The named operations over the state: memory cells, registers, threads and units, translation, the strip
store buffer and its commit, and taking an exception. -/

namespace Sys2Proof.Machine

open Sys2Proof

/-! ### Memory cells -/

/-- The byte at an address; an unlisted byte reads 0 (log entry 2). -/
def Memory.read : List Host.Cell → Nat → Byte
  | [], _ => 0
  | (k, v) :: m, a => if k = a then v else Memory.read m a

/-- Write a byte, keeping the cells in rising order and listing no byte equal to 0. -/
def Memory.write : List Host.Cell → Nat → Byte → List Host.Cell
  | [], a, b => if b = 0 then [] else [(a, b)]
  | (k, v) :: m, a, b =>
    if a < k then (if b = 0 then (k, v) :: m else (a, b) :: (k, v) :: m)
    else if a = k then (if b = 0 then m else (a, b) :: m)
    else (k, v) :: Memory.write m a b

/-- The canonical form from an address on: strictly rising addresses at or above `lo`, no byte 0. -/
def Memory.wfFrom : Nat → List Host.Cell → Bool
  | _, [] => true
  | lo, (k, v) :: m => decide (lo ≤ k) && decide (v ≠ 0) && Memory.wfFrom (k + 1) m

/-- The canonical form of memory. -/
def Memory.wf (m : List Host.Cell) : Bool := Memory.wfFrom 0 m

/-- The cells below an address, and those at or above it. -/
def Memory.zeroRange (m : List Host.Cell) (lo hi : Nat) : List Host.Cell :=
  m.filter (fun c => decide (c.1 < lo) || decide (hi ≤ c.1))

/-- `n` bytes from an address. -/
def Memory.readN (m : List Host.Cell) (a n : Nat) : List Byte := (List.range n).map (fun i => Memory.read m (a + i))

/-- Write bytes from an address on. -/
def Memory.writeN : List Host.Cell → Nat → List Byte → List Host.Cell
  | m, _, [] => m
  | m, a, b :: bs => Memory.writeN (Memory.write m a b) (a + 1) bs

/-- The little-endian value of a field of a record. -/
def fieldAt (bs : List Byte) (off len : Nat) : Nat := leValue ((bs.drop off).take len)

/-- Bytes `lo .. hi` of a record are all zero. -/
def zeroAt (bs : List Byte) (off len : Nat) : Bool := fieldAt bs off len == 0

/-! ### Lists kept by number -/

/-- The value at a key, or a default. -/
def assocGet (d : Nat) : List (Nat × Nat) → Nat → Nat
  | [], _ => d
  | (k, v) :: xs, a => if k = a then v else assocGet d xs a

/-- The list with the value at a key replaced, in rising order of keys. -/
def assocSet : List (Nat × Nat) → Nat → Nat → List (Nat × Nat)
  | [], a, v => [(a, v)]
  | (k, w) :: xs, a, v =>
    if a < k then (a, v) :: (k, w) :: xs else if a = k then (a, v) :: xs else (k, w) :: assocSet xs a v

/-! ### Threads and units -/

/-- Insert a thread by its slot. -/
def insertThread (t : Thread) : List Thread → List Thread
  | [] => [t]
  | r :: rs => if t.slot < r.slot then t :: r :: rs else if t.slot = r.slot then t :: rs else r :: insertThread t rs

/-- Insert a unit by its number. -/
def insertUnit (u : UnitCtx) : List UnitCtx → List UnitCtx
  | [] => [u]
  | r :: rs => if u.uid < r.uid then u :: r :: rs else if u.uid = r.uid then u :: rs else r :: insertUnit u rs

/-- The threads of the current unit, the current one included. -/
def unitThreads (s : State) : List Thread := if s.t.slot < 16 then insertThread s.t s.u.threads else s.u.threads

/-- The current unit with all its threads. -/
def wholeUnit (s : State) : UnitCtx := { s.u with threads := unitThreads s }

/-- Every unit of the device, the current one included. -/
def allUnits (s : State) : List UnitCtx := if s.u.uid = 0 then s.units else insertUnit (wholeUnit s) s.units

/-- Put the current unit back among the others. -/
def park (s : State) : State := { s with t := .none, u := .empty, units := allUnits s }

/-- Make a unit the current one, with no current thread; none where there is no such unit. -/
def focusUnit (uid : Nat) (s : State) : Option State :=
  match (allUnits s).find? (fun u => u.uid == uid) with
  | none => none
  | some u => some { s with t := .none, u := u, units := (allUnits s).filter (fun r => r.uid != uid) }

/-- Make a thread the current one; none where there is no such thread. -/
def focus (i : Tid) (s : State) : Option State :=
  if s.u.uid = i.uid ∧ s.t.slot = i.slot ∧ i.uid ≠ 0 ∧ i.slot < 16 then some s
  else
    match focusUnit i.uid s with
    | none => none
    | some s' =>
      match s'.u.threads.find? (fun t => t.slot == i.slot) with
      | none => none
      | some t => some { s' with t := t, u := { s'.u with threads := s'.u.threads.filter (fun r => r.slot != i.slot) } }

/-- The current thread's name. -/
def here (s : State) : Tid := { uid := s.u.uid, slot := s.t.slot }

/-- Apply a change to a unit wherever it is held. -/
def mapUnit (uid : Nat) (f : UnitCtx → UnitCtx) (s : State) : State :=
  if s.u.uid = uid then
    let u := f (wholeUnit s)
    if s.t.slot < 16 then
      match u.threads.find? (fun t => t.slot == s.t.slot) with
      | some t => { s with t := t, u := { u with threads := u.threads.filter (fun r => r.slot != s.t.slot) } }
      | none => { s with t := .none, u := u }
    else { s with u := u }
  else { s with units := s.units.map (fun u => if u.uid = uid then f u else u) }

/-- A partition by its number. -/
def getPart (s : State) (n : Nat) : PartState := if h : n < 4 then s.parts[n] else .reset

/-- Replace a partition. -/
def setPart (s : State) (n : Nat) (p : PartState) : State :=
  if h : n < 4 then { s with parts := s.parts.set n p h } else s

/-- Change a partition. -/
def mapPart (s : State) (n : Nat) (f : PartState → PartState) : State := setPart s n (f (getPart s n))

/-- The partition of the current unit. -/
def myPart (s : State) : PartState := getPart s s.u.part

/-- The dies of a partition under a configuration (R317); the partition's number is its lowest die. -/
def diesOf (config part : Nat) : List Nat :=
  match config, part with
  | 0, 0 => [0, 1, 2, 3]
  | 1, 0 => [0, 1] | 1, 2 => [2, 3]
  | 2, 0 => [0, 1] | 2, 2 => [2] | 2, 3 => [3]
  | 3, 0 => [0] | 3, 1 => [1] | 3, 2 => [2, 3]
  | 4, n => if n < 4 then [n] else []
  | _, _ => []

/-- A compute die by its number. -/
def getDie (s : State) (n : Nat) : DieState := if h : n < 4 then s.dies[n] else .reset

/-- The arithmetic clock of a partition in 100 MHz units: its dies move together (R350, R352). -/
def partClk (s : State) (part : Nat) : Nat := (getPart s part).clk

/-- The partition that owns a die. -/
def partOfDie (config die : Nat) : Nat := ((List.range 4).find? (fun n => (diesOf config n).contains die)).getD 0

/-- The launch at a pool entry with a generation. -/
def findLaunch (p : PartState) (entry gen : Nat) : Option Launch :=
  p.launches.find? (fun l => l.entry == entry && l.gen == gen)

/-- The launch of the current unit. -/
def myLaunch (s : State) : Option Launch := findLaunch (myPart s) s.u.entry s.u.gen

/-- The launch record of the current unit, as read (R260). -/
def myRecord (s : State) : List Byte :=
  match myLaunch s with
  | some l => l.record
  | none => []

/-- The job id of the current unit. -/
def myJobId (s : State) : Nat :=
  match myLaunch s with
  | some l => l.job
  | none => 0xFFFF

/-- A job with no registration (R315): QUOTA 1 and the rest 0. -/
def Job.unset (id : Nat) : Job :=
  { id, root := 0, par := 0x10000, meas := 0, outstanding := 0, completed := 0, canc := false, fault := false,
    graphs := [], phases := [], rank := 0, ranks := [0], sent := [], recvd := [], groups := [],
    devices := [],
    glIssued := List.replicate 4 (Vector.replicate 8 0), gl := List.replicate 4 (Vector.replicate 8 0),
    lastRound := none, complete := false }

/-- A job of a partition by its id. -/
def getJob (p : PartState) (id : Nat) : Job :=
  match p.jobs.find? (fun j => j.id == id) with
  | some j => j
  | none => .unset id

/-- Insert a job by its id. -/
def insertJob (j : Job) : List Job → List Job
  | [] => [j]
  | r :: rs => if j.id < r.id then j :: r :: rs else if j.id = r.id then j :: rs else r :: insertJob j rs

/-- Replace a job. -/
def setJob (p : PartState) (j : Job) : PartState := { p with jobs := insertJob j p.jobs }

/-- The job of the current unit. -/
def myJob (s : State) : Job := getJob (myPart s) (myJobId s)

/-- Whether the current unit's launch is deterministic (R260: FLAGS bit 0). -/
def isDet (s : State) : Bool := bitsAt (fieldAt (myRecord s) 43 1) 0 1 == 1

/-- The lanes per vector thread of the current launch (R260). -/
def recordLanes (s : State) : Nat := 8 * fieldAt (myRecord s) 37 1

/-- The lanes L of R88: the logical lanes of a DET launch, else those in force. -/
def lanesOf (s : State) : Nat := if isDet s then recordLanes s else s.t.lanes

/-- The cluster of the current unit, die × 32 + cluster. -/
def myCluster (s : State) : Nat := s.u.cluster.getD 0

/-- The die of the current unit. -/
def myDie (s : State) : Nat := myCluster s / 32

/-! ### Scalar registers and the PC -/

/-- X[r]: x0 reads zero (R85). -/
def getX (s : State) (r : Field) : W64 :=
  if h : r.toNat < 64 then (if r = 0 then 0 else s.t.arch.x[r.toNat]) else 0

/-- The machine with the current thread's checkpointed registers replaced. -/
def withArch (s : State) (a : Arch) : State := { s with t := { s.t with arch := a } }

/-- X[r] := v: a write to x0 is ignored (R85). -/
def setX (s : State) (r : Field) (v : W64) : State :=
  if h : r.toNat < 64 then
    if r = 0 then s else withArch s { s.t.arch with x := s.t.arch.x.set r.toNat v h }
  else s

/-- PC of the current instruction. -/
def pcOf (s : State) : W64 := s.t.arch.pc

/-- Set the PC. -/
def setPc (s : State) (v : W64) : State := withArch s { s.t.arch with pc := v }

/-! ### Configuration fields of vtr (R86) -/

/-- The element type of vtr. -/
def vtrType (s : State) : ElemTy := (ElemTy.ofCode (bitsAt s.t.arch.vtr.toNat 0 5)).getD .f32

/-- vtr.RM as its code. -/
def vtrRm (s : State) : Nat := bitsAt s.t.arch.vtr.toNat 6 3

/-- vtr.FLUSH. -/
def vtrFlush (s : State) : Nat := bitsAt s.t.arch.vtr.toNat 9 2

/-- The block length B of vtr.BLEN. -/
def vtrBlock (s : State) : Nat := 16 * 2 ^ bitsAt s.t.arch.vtr.toNat 14 2

/-- The grouping factor G times four. -/
def vtrGroup4 (s : State) : Nat :=
  match bitsAt s.t.arch.vtr.toNat 11 3 with
  | 0 => 4 | 1 => 8 | 2 => 16 | 3 => 1 | 4 => 2 | _ => 4

/-- vtr with the given fields, SEW derived from the type (R86). -/
def vtrWord (ty : ElemTy) (rm flush group blen : Nat) : W64 :=
  let sew := match ty.width with | 4 => 0 | 8 => 1 | 16 => 2 | 32 => 3 | _ => 4
  BitVec.ofNat 64 (ty.code + rm * 2 ^ 6 + flush * 2 ^ 9 + group * 2 ^ 11 + blen * 2 ^ 14 + sew * 2 ^ 16)

/-- regbits (R88). -/
def regbits (s : State) : Nat := if s.t.arch.vnreg = 0 then 0 else 32768 * lanesOf s / s.t.arch.vnreg

/-- vlmax (R88). -/
def vlmax (s : State) : Nat :=
  min (min 4096 (64 * lanesOf s)) (4 * regbits s / ((vtrType s).width * vtrGroup4 s))

/-! ### Physical addresses -/

/-- The window of the cluster scratchpad (R207). -/
def cspBase : Nat := 0x00FFFF0000000000

/-- The cluster cache's size code of a cluster (R207). -/
def cacheCode (s : State) (cluster : Nat) : Nat := assocGet 0 s.cccfg cluster

/-- Bytes of the cluster cache: 0, 0.5 MiB or 1 MiB. -/
def cacheBytes (s : State) (cluster : Nat) : Nat :=
  match cacheCode s cluster with
  | 1 => 0x80000
  | 2 => 0x100000
  | _ => 0

/-- Bytes of the CSP that the current unit can address (R207). -/
def cspBytes (s : State) : Nat := 0x200000 - cacheBytes s (myCluster s)

/-- A physical address in the DRAM of a partition's dies (R310). -/
def dramOwned (s : State) (part pa : Nat) : Bool :=
  decide (pa % 2 ^ 44 < 48 * 2 ^ 30) && (diesOf s.config part).contains (pa / 2 ^ 44)

/-- A fault on memory: its code and the address it reports. -/
structure MemFault where
  code : Nat
  addr : Nat
  deriving DecidableEq, Repr

/-- The kinds of access of R313. -/
inductive Access where
  | fetch | load | store | amo | dict
  deriving DecidableEq, Repr

/-- A location holds DRAM, not the CSP. -/
def isDram (loc : Nat) : Bool := decide (loc < cspBase)

/-- The raw byte at a location: a DRAM cell, or a CSP cell of the current unit. -/
def rawByte (s : State) (loc : Nat) : Byte :=
  if isDram loc then Memory.read s.mem loc else Memory.read s.u.csp (loc - cspBase)

/-- Whether the guard of a line fails: a listed guard that is not the CRC of the line (R344). -/
def guardFails (s : State) (line : Nat) : Bool :=
  match s.guards.find? (fun g => g.1 == line) with
  | none => false
  | some g => g.2 != crc16 (Memory.readN s.mem (64 * line) 64)

/-- What a read of a location's line raises: Uncorrectable memory error or Data integrity (R342, R344). -/
def lineError (s : State) (loc : Nat) : Option Nat :=
  if isDram loc then
    if s.poison.contains (loc / 64) then some 0x15 else if guardFails s (loc / 64) then some 0x14 else none
  else none

/-! ### Translation (R310 to R314) -/

/-- The address-space facts that a translation uses: partition, ASID, root table, mode bit, whose cache. -/
structure Space where
  part : Nat
  asid : Nat
  root : Nat
  user : Bool
  agent : Nat
  deriving DecidableEq, Repr

/-- The address space of the current thread; `user` says whether the U bit is required. -/
def mySpace (s : State) (user : Bool) : Space :=
  let j := myJob s
  { part := s.u.part, asid := bitsAt j.par.toNat 48 16, root := j.root.toNat, user, agent := myCluster s }

/-- The malformed entries of R312. -/
def malformed (level e : Nat) : Bool :=
  let leaf := bitsAt e 1 1 == 1
  bitsAt e 63 1 != 0 || bitsAt e 52 9 != 0 || bitsAt e 7 6 != 0
  || (leaf && level == 3) || (!leaf && level == 0)
  || (!leaf && (bitsAt e 61 2 != 0 || bitsAt e 2 5 != 0))
  || (leaf && bitsAt e 13 (3 + 10 * level) != 0)
  || (leaf && bitsAt e 3 1 == 0 && (bitsAt e 4 1 == 1 || bitsAt e 6 1 == 1))

/-- The walk from a table at a level: the leaf's level and entry. -/
def walkFrom (s : State) (part va : Nat) : Nat → Nat → Except MemFault (Nat × Nat)
  | level, base =>
    let pa := base + 8 * bitsAt va (16 + 10 * level) 10
    if !dramOwned s part pa then .error { code := 0x08, addr := va }
    else
      match lineError s pa with
      | some c => .error { code := c, addr := va }
      | none =>
        let e := leValue (Memory.readN s.mem pa 8)
        if bitsAt e 0 1 = 0 ∨ malformed level e then .error { code := 0x07, addr := va }
        else if bitsAt e 1 1 = 1 then .ok (level, e)
        else
          match level with
          | 0 => .error { code := 0x07, addr := va }
          | l + 1 => walkFrom s part va l (bitsAt e 13 39 * 2 ^ 13)

/-- The physical address that a leaf gives, where it permits the access (R310, R313). -/
def leafAddr (s : State) (sp : Space) (acc : Access) (level leaf va : Nat) : Except MemFault Nat :=
  let bit (n : Nat) : Bool := bitsAt leaf n 1 == 1
  let permits : Bool :=
    (match acc with
      | .fetch => bit 5
      | .load => bit 3
      | .store => bit 4
      | .amo => bit 3 && bit 4
      | .dict => bit 3 && bit 6)
    && (!sp.user || bit 2)
  let size := 16 + 10 * level
  let pa := bitsAt leaf size (52 - size) * 2 ^ size + va % 2 ^ size
  if permits && dramOwned s sp.part pa then .ok pa else .error { code := 0x08, addr := va }

/-- A cached leaf that covers an address. -/
def cachedLeaf (s : State) (sp : Space) (va : Nat) : Option TlbEntry :=
  (getPart s sp.part).tlb.find? (fun e =>
    e.agent == sp.agent && e.asid == sp.asid && e.vpn == va / 2 ^ (16 + 10 * e.level))

/-- Keep a translation in the cache of the agent that walked (R314). -/
def cacheLeaf (s : State) (sp : Space) (va level leaf : Nat) : State :=
  let e : TlbEntry :=
    { agent := sp.agent, asid := sp.asid, level, vpn := va / 2 ^ (16 + 10 * level), leaf := BitVec.ofNat 64 leaf }
  mapPart s sp.part (fun p =>
    { p with tlb := e :: p.tlb.filter (fun r =>
        !(r.agent == e.agent && r.asid == e.asid && r.vpn / 2 ^ (10 * (level - r.level)) == e.vpn / 2 ^ (10 * (r.level - level)))) })

/-- The location of a virtual address (R206, R207, R313, R314). A cached entry never raises a fault: the walk is made
again before one is raised. -/
def translate (s : State) (sp : Space) (acc : Access) (va : Nat) : Except MemFault (Nat × State) :=
  if va ≥ 2 ^ 56 then .error { code := 0x08, addr := va }
  else if va ≥ 0x00FFFF0000000000 then
    if va - cspBase < cspBytes s then .ok (va, s) else .error { code := 0x08, addr := va }
  else
    let fresh : Except MemFault (Nat × State) :=
      match walkFrom s sp.part va 3 sp.root with
      | .error f => .error f
      | .ok (level, leaf) =>
        match leafAddr s sp acc level leaf va with
        | .error f => .error f
        | .ok pa => .ok (pa, cacheLeaf s sp va level leaf)
    match cachedLeaf s sp va with
    | none => fresh
    | some e =>
      match leafAddr s sp acc e.level e.leaf.toNat va with
      | .ok pa => .ok (pa, s)
      | .error _ => fresh

/-- Translate each byte of a run: the location of each. -/
def translateRun (sp : Space) (acc : Access) : Nat → Nat → State → Except MemFault (List Nat × State)
  | 0, _, s => .ok ([], s)
  | n + 1, va, s =>
    match translate s sp acc va with
    | .error f => .error f
    | .ok (loc, s1) =>
      match translateRun sp acc n ((va + 1) % 2 ^ 64) s1 with
      | .error f => .error f
      | .ok (locs, s2) => .ok (loc :: locs, s2)

/-- Locations of the `n` bytes of a naturally aligned access, which lie on one page. -/
def translateElem (s : State) (sp : Space) (acc : Access) (va n : Nat) : Except MemFault (List Nat × State) :=
  match translate s sp acc va with
  | .error f => .error f
  | .ok (loc, s1) => .ok ((List.range n).map (fun i => loc + i), s1)

/-! ### Reading -/

/-- A byte with the bits that a store writes replaced. -/
def mergeByte (old new mask : Byte) : Byte := (old &&& ~~~mask) ||| (new &&& mask)

/-- A byte as a store's elements leave it. -/
def overlayBytes (loc : Nat) : List StoreByte → Byte → Byte
  | [], b => b
  | w :: ws, b => overlayBytes loc ws (if w.loc = loc then mergeByte b w.val w.mask else b)

/-- A byte as the elements of a store leave it. -/
def overlayElems (loc : Nat) : List (List StoreByte) → Byte → Byte
  | [], b => b
  | e :: es, b => overlayElems loc es (overlayBytes loc e b)

/-- A byte as committed and not performed stores leave it. -/
def overlayPending (loc : Nat) : List Pending → Byte → Byte
  | [], b => b
  | .store st :: ps, b => overlayPending loc ps (overlayElems loc st.elems b)
  | _ :: ps, b => overlayPending loc ps b

/-- A byte as the open strip's stores leave it (R209). -/
def overlayStrip (loc : Nat) : List StripItem → Byte → Byte
  | [], b => b
  | .store st :: ps, b => overlayStrip loc ps (overlayElems loc st.elems b)
  | _ :: ps, b => overlayStrip loc ps b

/-- The larger of two exact values by the ordering of `fmax` (R103, R246): −0 below +0, one NaN gives the other. -/
def fmaxCode (f : FloatFmt) (a b : Nat) : Nat :=
  let x := f.decode a
  let y := f.decode b
  match x.cmp y with
  | none => if x.isNan then (if y.isNan then f.nanCode else b) else a
  | some c => if c < 0 then b else if c > 0 then a else if x.sign then b else a

/-- New(old, v) of an AMO (R246), on `width` bits. -/
def amoNew (op : AmoOp) (width ty old v expected : Nat) : Nat :=
  let signed := ty == 13 || ty == 14 || ty == 0
  let asInt (x : Nat) : Int := if signed then signedOf width x else ((x % 2 ^ width : Nat) : Int)
  let fmt : FloatFmt := if width = 32 then .fp32 else .fp64
  match op with
  | .add => (old + v) % 2 ^ width
  | .fadd => fmt.round ((fmt.decode old).add (fmt.decode v) .rne) .rne
  | .max => if asInt old < asInt v then v else old
  | .min => if asInt v < asInt old then v else old
  | .and => Nat.land old v
  | .or => Nat.lor old v
  | .swap => v
  | .cas => if old = expected then v else old
  | .fmax => fmaxCode fmt old v

/-- The bytes of a value as a store of a contiguous element. -/
def storeBytes (loc n v : Nat) : List StoreByte :=
  (List.range n).map (fun i => { loc := loc + i, val := BitVec.ofNat 8 (v / 256 ^ i), mask := 0xFF })

/-- A byte in a thread's own view of a DET launch: the stores and AMOs of its current epochs applied (R81, R82). -/
def detByte (base : Nat → Byte) : List (Nat × DetItem) → (Nat → Byte)
  | [] => base
  | (_, .store st) :: xs => detByte (fun loc => overlayElems loc st.elems (base loc)) xs
  | (_, .amo op loc width ty v ex _) :: xs =>
    let n := width / 8
    let old := leValue ((List.range n).map (fun i => base (loc + i)))
    let new := amoNew op width ty old v ex
    detByte (fun a => if loc ≤ a ∧ a < loc + n then BitVec.ofNat 8 (new / 256 ^ (a - loc)) else base a) xs
  | (_, .cmd ..) :: xs => detByte base xs
  | (_, .slots ..) :: xs => detByte base xs
  | (_, .tile _) :: xs => detByte base xs

/-- The byte that the cluster cache or DRAM gives to a thread of the current unit (R243). -/
def cachedByte (s : State) (loc : Nat) : Byte :=
  if isDram loc then
    match s.u.cache.find? (fun c => c.line == loc / 64) with
    | some c => c.bytes.getD (loc % 64) 0
    | none => Memory.read s.mem loc
  else rawByte s loc

/-- The byte that a load of the current thread returns (R209, R243, R81). -/
def viewByte (s : State) (loc : Nat) : Byte :=
  overlayStrip loc s.t.strip.items
    (overlayPending loc s.t.performing (detByte (cachedByte s) s.t.wcb loc))

/-- Bring the line of a DRAM location into the cluster cache, where the cluster has one (R207, R243). -/
def fillLine (s : State) (loc : Nat) : State :=
  let room := cacheBytes s (myCluster s) / 64
  if isDram loc ∧ room ≠ 0 ∧ !(s.u.cache.any (fun c => c.line == loc / 64)) then
    let c : CacheLine := { line := loc / 64, bytes := Memory.readN s.mem (loc / 64 * 64) 64 }
    { s with u := { s.u with cache := (c :: s.u.cache).take room } }
  else s

/-- Bring every line of a list of locations into the cluster cache. -/
def fillLines : List Nat → State → State
  | [], s => s
  | l :: ls, s => fillLines ls (fillLine s l)

/-- The value at a list of locations, least significant first, as a load of the current thread returns it. -/
def viewValue (s : State) (locs : List Nat) : Nat := leValue (locs.map (viewByte s))

/-- The first error among the lines of an access, with its address (R219 step 8). `va` is the address of the first
location. A line that the cluster cache serves is not read again. -/
def dataError (s : State) : Nat → List Nat → Option MemFault
  | _, [] => none
  | va, loc :: locs =>
    match (if s.u.cache.any (fun c => isDram loc && c.line == loc / 64) then none else lineError s loc) with
    | some c => some { code := c, addr := va }
    | none => dataError s (va + 1) locs

/-! ### Writing -/

/-- Whether a line is guarded by a wrong guard or poisoned after a write that does not cover it (R342, R344). -/
def spoilLine (s : State) (line : Nat) : State :=
  if guardFails s line then
    { s with poison := if s.poison.contains line then s.poison else line :: s.poison,
             guards := s.guards.filter (fun g => g.1 != line) }
  else s

/-- A line that one write covers whole is good again (R342, R344). -/
def healLine (s : State) (line : Nat) : State :=
  { s with poison := s.poison.filter (fun l => l != line), guards := s.guards.filter (fun g => g.1 != line) }

/-- Write one byte at a location: a DRAM cell or a CSP cell of the current unit. -/
def rawWrite (s : State) (loc : Nat) (b : Byte) : State :=
  if isDram loc then { s with mem := Memory.write s.mem loc b }
  else { s with u := { s.u with csp := Memory.write s.u.csp (loc - cspBase) b } }

/-- Write-through to the cached copy of a line in the current unit's cluster (R207, R243). -/
def cacheWrite (s : State) (loc : Nat) (b : Byte) : State :=
  if isDram loc then
    { s with u := { s.u with cache := s.u.cache.map (fun c =>
        if c.line = loc / 64 then { c with bytes := setNth c.bytes (loc % 64) b } else c) } }
  else s

/-- Perform one byte of a store of the current unit. -/
def performByte (s : State) (w : StoreByte) : State :=
  let b := mergeByte (rawByte s w.loc) w.val w.mask
  let s1 := if isDram w.loc then spoilLine s (w.loc / 64) else s
  cacheWrite (rawWrite s1 w.loc b) w.loc b

/-- Perform the bytes of an element. -/
def performBytes (s : State) (ws : List StoreByte) : State := ws.foldl performByte s

/-- Perform a whole store; the lines it covers become good. -/
def performStore (s : State) (st : Store) : State :=
  let s1 := st.full.foldl healLine s
  st.elems.foldl performBytes s1

/-- Bytes written to DRAM by the device itself, by the application die or through a port: no cluster cache sees them
(R243). A line that the write covers whole becomes good, and one whose old guard fails becomes poisoned (R344). -/
def deviceWrite (pa : Nat) (bytes : List Byte) (s : State) : State :=
  let lines := (List.range ((pa + bytes.length + 63) / 64 - pa / 64)).map (fun i => pa / 64 + i)
  let whole (l : Nat) : Bool := decide (pa ≤ 64 * l) && decide (64 * l + 64 ≤ pa + bytes.length)
  let s1 := lines.foldl (fun s l => if whole l then healLine s l else spoilLine s l) s
  { s1 with mem := Memory.writeN s1.mem pa bytes }

/-! ### Engine commands at commit (R237) -/

/-- A copy issues under its number (R232, R237). -/
def issueCopy (s : State) (num tl : Nat) (dst src : List Byte) (cls slot : Nat) : State :=
  if h : tl < 15 then
    let c : Copy := { tl, num, dst, src, cls, issuer := slot, started := false, done := 0, ended := false, saved := [] }
    { s with u := { s.u with tlIssued := s.u.tlIssued.set tl (s.u.tlIssued[tl] + 1) h, copies := s.u.copies ++ [c] } }
  else s

/-- The gl timelines of a die, issued numbers. -/
def glIssuedAt (j : Job) (die gl : Nat) : Nat := ((j.glIssued.getD die (Vector.replicate 8 0)).toList).getD gl 0

/-- The gl timelines of a die, completed numbers. -/
def glAt (j : Job) (die gl : Nat) : Nat := ((j.gl.getD die (Vector.replicate 8 0)).toList).getD gl 0

/-- A list of gl timelines with one number replaced. -/
def setGl (xs : List (Vector Nat 8)) (die gl v : Nat) : List (Vector Nat 8) :=
  let cur := xs.getD die (Vector.replicate 8 0)
  if h : gl < 8 then setNth xs die (cur.set gl v h) else xs

/-- A collective takes its number, as it issues, on the timeline of the die it was executed on, which its checks found a member
of its group, wherever its unit is by then (R302; log entry 46). In a cancelled job it is over, with code 3, as the device
has left the job (R303). -/
def issueColl (s : State) (gl : Nat) (desc : List Byte) (die slot : Nat) : State :=
  let job := myJobId s
  let uid := s.u.uid
  mapPart s s.u.part (fun p =>
    let j := getJob p job
    let n := glIssuedAt j die gl + 1
    let c : Coll := { job, gl, num := n, die, uid, slot, desc, since := 0, running := j.canc, chunk := 0
                      code := if j.canc then 3 else 0 }
    { setJob p { j with glIssued := setGl j.glIssued die gl n } with colls := p.colls ++ [c] })

/-- A packet is sent and counted for the pair of ranks (R286, R304). -/
def issueXsend (s : State) (rank : Nat) (pkt : Packet) : State :=
  mapPart s s.u.part (fun p =>
    let j := getJob p pkt.job
    let p1 := setJob p { j with sent := assocSet j.sent rank (assocGet 0 j.sent rank + 1) }
    { p1 with sentOut := p1.sentOut ++ [(rank, pkt)] })

/-- An engine command of a thread slot issues; `num` is a copy's number. -/
def issueCmd (s : State) (slot num : Nat) : Cmd → State
  | .copy tl dst src cls => issueCopy s num tl dst src cls slot
  | .coll gl desc die => issueColl s gl desc die slot
  | .xsend rank pkt => issueXsend s rank pkt

/-! ### Channels (R182 to R187) -/

def getChan (s : State) (ch : Nat) : Chan := if h : ch < 16 then s.u.chans[ch] else .unconfigured

def setChan (s : State) (ch : Nat) (c : Chan) : State :=
  if h : ch < 16 then { s with u := { s.u with chans := s.u.chans.set ch c h } } else s

/-- Publish and release slots of a channel at commit (R187). -/
def moveSlots (s : State) (ch sent recvd : Nat) : State :=
  let c := getChan s ch
  if c.scount = 0 then s
  else setChan s ch { c with full := c.full + sent - recvd, ppos := (c.ppos + sent) % c.scount,
                             cpos := (c.cpos + recvd) % c.scount }

/-! ### The commit of a strip (R237) -/

/-- The slot advances of a strip, channel by channel. -/
def stripSlots (st : Strip) : List Pending :=
  (List.range 16).filterMap (fun ch =>
    let a := st.sent.toList.getD ch 0
    let b := st.recvd.toList.getD ch 0
    if a = 0 ∧ b = 0 then none else some (.slots ch a b))

/-- A strip item as a committed effect. -/
def StripItem.pending : StripItem → Pending
  | .store st => .store st
  | .fence m => .fence m

/-- A command is a copy on a timeline. -/
def Cmd.onTimeline (tl : Nat) (c : Cmd) : Bool :=
  match c with
  | .copy t .. => t == tl
  | .coll .. => false
  | .xsend .. => false

/-- Copies on a timeline that a thread has committed and that have not issued. -/
def waitingCopies (tl : Nat) (t : Thread) : Nat :=
  (t.performing.filter (fun p => match p with | .cmd _ c => c.onTimeline tl | _ => false)).length
  + (t.wcb.filter (fun e => match e.2 with | .cmd _ c => c.onTimeline tl | _ => false)).length

/-- Copies on a timeline that the current unit's threads have committed. -/
def committedCopies (s : State) (tl : Nat) : Nat :=
  s.u.tlIssued.toList.getD tl 0 + ((unitThreads s).map (waitingCopies tl)).sum

/-- The open strip's engine commands as its commit makes them: a copy takes the next number of its timeline, behind every copy
that a thread of the unit has committed before (R232). -/
def numberedCmds (s : State) : List Pending :=
  let cmds := s.t.strip.cmds
  (cmds.zip (List.range cmds.length)).map (fun c =>
    match c.1 with
    | .copy tl .. => .cmd (committedCopies s tl + ((cmds.take c.2).filter (Cmd.onTimeline tl)).length + 1) c.1
    | .coll .. => .cmd 0 c.1
    | .xsend .. => .cmd 0 c.1)

/-- The effects of the open strip in the order they commit: stores and fences, engine commands, slot advances. -/
def stripEffects (s : State) : List Pending :=
  s.t.strip.items.map StripItem.pending ++ numberedCmds s ++ stripSlots s.t.strip

/-- Commit the open strip: its effects wait to perform, and an empty strip stands open in its place. Every load of the
thread has performed already. Shadows of function registers are released (R144). -/
def commit (s : State) : State :=
  { s with t := { s.t with performing := s.t.performing ++ stripEffects s, strip := .empty 1,
                           noRollback := false } }

/-- An item joins the write-combining buffer of the thread's current epoch (R81). -/
def bufferDet (s : State) (x : DetItem) : State :=
  { s with t := { s.t with wcb := s.t.wcb ++ [(s.t.epoch + 1, x)] } }

/-- One committed effect performs. In a DET launch a store waits in the write-combining buffer of its epoch (R81), and
an engine command or a slot advance behind one waits with it (R237); the slot bytes of a `chsend` are no plain store. -/
def performPending (s : State) (p : Pending) : State :=
  match p with
  | .store st => if isDet s ∧ st.cls ≠ 16 then bufferDet s (.store st) else performStore s st
  | .fence _ => s
  | .cmd n c => if s.t.wcb.isEmpty then issueCmd s s.t.slot n c else bufferDet s (.cmd n c)
  | .slots ch a b => if s.t.wcb.isEmpty then moveSlots s ch a b else bufferDet s (.slots ch a b)
  | .tile n => if s.t.wcb.isEmpty then s else bufferDet s (.tile n)

/-- Every committed effect of the current thread performs, in program order. -/
def drain (s : State) : State :=
  s.t.performing.foldl performPending { s with t := { s.t with performing := [] } }

/-! ### Strips -/

/-- The strip state that a checkpoint takes, and the empty strip that opens (R92, R238). -/
def openStrip (s : State) (opened : Nat) : State :=
  let t := { s.t with ckpt := s.t.arch, strip := .empty opened, stripAge := 0 }
  { s with t := match t.mode with
      | .user => { t with spc := t.arch.pc }
      | .super => t }

/-- The lines of the store buffer that the open strip touches (R239). -/
def stripLines (st : Strip) : List Nat :=
  (st.items.flatMap (fun i => match i with
    | .store x => x.elems.flatMap (fun e => e.map (fun w => w.loc / 64))
    | .fence _ => [])).eraseDups

/-- sfi as a rollback writes it (R241). -/
def sfiWord (st : Strip) : W64 :=
  BitVec.ofNat 64 (st.opened + (stripLines st).length * 2 ^ 8 + st.cmds.length * 2 ^ 19)

/-- Streams with nothing read ahead (R227). -/
def dropAhead (a : Arch) : Arch := { a with sm := a.sm.map (fun m => { m with ahead := [] }) }

/-- Roll the open strip back to its checkpoint (R8, R241). -/
def rollback (s : State) : State :=
  { s with t := { s.t with arch := dropAhead s.t.ckpt, sfi := sfiWord s.t.strip, strip := .empty s.t.strip.opened } }

/-- Close the strip because the store buffer, the command limit or the age limit is reached (R239, R240): the new strip
opens at the current PC and leaves the strip sequence number and the rounding ordinal. -/
def closeForced (s : State) (opened : Nat) : State := openStrip (commit s) opened

/-- An acquire at a scope (R234, R242): elements read ahead are dropped, and at die scope or wider the cluster cache's
lines. -/
def acquire (s : State) (scope : Nat) : State :=
  let s1 := withArch s (dropAhead s.t.arch)
  if scope ≥ 3 then { s1 with u := { s1.u with cache := [] } } else s1

/-- The bytes of an element of a stream. -/
def streamBytes (m : Stream) : Nat :=
  match ElemTy.ofCode (bitsAt m.word.toNat 27 5) with
  | some t => t.width / 8
  | none => 8

/-- Elements read ahead that the thread's own write of these locations overlaps are dropped: a thread sees its own
writes (R227, R235). -/
def dropWritten (a : Arch) (locs : List Nat) : Arch :=
  { a with sm := a.sm.map (fun m =>
      { m with ahead := m.ahead.filter (fun e =>
          !(locs.any (fun l => decide (e.2.2 ≤ l) && decide (l < e.2.2 + streamBytes m)))) }) }

/-- Elements read ahead that hold another value for a byte than a later load of the thread has returned are dropped: no
later read returns an earlier value (R235). -/
def dropSeen (a : Arch) (bytes : List (Nat × Byte)) : Arch :=
  { a with sm := a.sm.map (fun m =>
      { m with ahead := m.ahead.filter (fun e =>
          bytes.all (fun b => decide (b.1 < e.2.2) || decide (e.2.2 + streamBytes m ≤ b.1)
            || BitVec.ofNat 8 (e.2.1 / 256 ^ (b.1 - e.2.2)) == b.2)) }) }

/-- The current thread has something read ahead. -/
def hasAhead (a : Arch) : Bool := a.sm.toList.any (fun m => !m.ahead.isEmpty)

/-- A load of the current thread brings its lines into the cluster cache and returns what the thread sees there. -/
def loadLines (locs : List Nat) (s : State) : State :=
  let s1 := fillLines locs s
  if hasAhead s1.t.arch then withArch s1 (dropSeen s1.t.arch (locs.map (fun l => (l, viewByte s1 l)))) else s1

/-- Elements read ahead that a store's bytes overlap are dropped. -/
def dropStored (a : Arch) (st : Store) : Arch := dropWritten a (st.elems.flatMap (fun e => e.map (fun w => w.loc)))

/-- The lines of 64 bytes that a store touches. -/
def storeLines (st : Store) : List Nat := (st.elems.flatMap (fun e => e.map (fun w => w.loc / 64))).eraseDups

/-- A store enters the strip store buffer (R239): it closes the strip before itself when its lines do not fit; a store
of more than 1,024 lines commits before itself, performs directly and commits after itself. A store of no byte is not
counted. Its meaning makes its checks first, so a store that faults closes nothing (log entry 39). -/
def addStore (s : State) (st : Store) : State :=
  let lines := storeLines st
  if lines.isEmpty then s
  else if lines.length > 1024 then
    let s1 := performPending (drain (commit s)) (.store st)
    openStrip (withArch s1 (dropStored s1.t.arch st)) 1
  else
    let have_ := stripLines s.t.strip
    let fresh := lines.filter (fun l => !(have_.contains l))
    let s1 := if have_.length + fresh.length > 1024 then closeForced s 2 else s
    let s2 := withArch s1 (dropStored s1.t.arch st)
    { s2 with t := { s2.t with strip := { s2.t.strip with items := s2.t.strip.items ++ [.store st] } } }

/-- What completes a store that has entered: one of more than 1,024 lines is a closing instruction, and a strip opens at
the next instruction (R238, R239). -/
def afterStore (st : Store) (s : State) : State := if 1024 < (storeLines st).length then openStrip s 1 else s

/-- An engine command enters the strip; one beyond the sixteenth closes the strip before itself (R239). -/
def addCmd (s : State) (c : Cmd) : State :=
  let s1 := if s.t.strip.cmds.length ≥ 16 then closeForced s 3 else s
  { s1 with t := { s1.t with strip := { s1.t.strip with cmds := s1.t.strip.cmds ++ [c] } } }

/-- The bits of the byte at a location that a list of stored bytes writes. -/
def writtenBits (ws : List StoreByte) (loc : Nat) : Byte :=
  ws.foldl (fun m w => if w.loc = loc then m ||| w.mask else m) 0

/-- The lines of 64 bytes whose every bit a list of stored bytes writes (R219 step 8, R342). -/
def coveredLines (ws : List StoreByte) : List Nat :=
  ((ws.map (fun w => w.loc / 64)).eraseDups).filter (fun l =>
    let mine := ws.filter (fun w => w.loc / 64 == l)
    isDram (64 * l) && (List.range 64).all (fun i => writtenBits mine (64 * l + i) == 0xFF))

/-- A store of elements in a class, with the lines it covers; it holds no pin. -/
def makeStore (cls : Nat) (elems : List (List StoreByte)) : Store :=
  { cls, elems, full := coveredLines elems.flatten, pins := [] }

/-- The translations under which an access to these virtual addresses has been made. -/
def pinsOf (sp : Space) (vas : List Nat) (s : State) : List Pin :=
  (((vas.map (fun va => va / 65536)).eraseDups).filterMap (fun page =>
    (cachedLeaf s sp (65536 * page)).map (fun e =>
      ({ asid := e.asid, level := e.level, vpn := e.vpn, age := (getPart s sp.part).removals } : Pin)))).eraseDups

/-- A store that holds the translations of these addresses pinned (R210). -/
def Store.pinned (st : Store) (sp : Space) (vas : List Nat) (s : State) : Store := { st with pins := pinsOf sp vas s }

/-! ### The journal (R345) -/

/-- PARTCFG of a partition (R318). -/
def partcfg (s : State) (part : Nat) : Nat :=
  let dies := (diesOf s.config part).foldl (fun acc d => acc + 2 ^ d) 0
  let ports := ((List.range 16).filter (fun n => (s.ports.toList.getD n .down).part == part)).foldl
    (fun acc n => acc + 2 ^ n) 0
  s.config + dies * 2 ^ 8 + ports * 2 ^ 16

/-- Write one journal entry of a partition; JRNHEAD passes it. -/
def journal (s : State) (part kind code job ref : Nat) (data : List Byte) : State :=
  let p := getPart s part
  let entry : List Byte :=
    leBytes 8 p.jrnHead ++ leBytes 1 kind ++ leBytes 1 code ++ leBytes 2 job
      ++ leBytes 1 (bitsAt (partcfg s part) 8 4) ++ leBytes 3 0 ++ leBytes 8 s.time ++ leBytes 8 ref
      ++ (data ++ List.replicate 32 0).take 32
  let pa := p.jrnBase * 2 ^ 22 + 64 * (p.jrnHead % 65536)
  let s1 := healLine { s with mem := Memory.writeN s.mem pa entry } (pa / 64)
  setPart s1 part { p with jrnHead := (p.jrnHead + 1) % 2 ^ 64 }

/-! ### Taking an exception (R326 to R329) -/

/-- How a trap is delivered (R326); escalation apart. -/
inductive TrapKind where
  | R | C | A | N
  deriving DecidableEq, Repr

/-- tstat.KIND. -/
def TrapKind.code : TrapKind → Nat
  | .R => 0 | .C => 1 | .N => 1 | .A => 2

/-- What a trap reports: cause, sub-cause, value and element. -/
structure Cause where
  code : Nat
  sub : Nat
  tval : W64
  telem : Nat
  deriving DecidableEq, Repr

/-- A cause with no sub-cause. -/
def Cause.of (code : Nat) (tval : W64) (telem : Nat) : Cause := { code, sub := 0, tval, telem }

/-- tstat as trap entry writes it: CHK kept, KIND, PM from the mode, STEP 0. -/
def tstatEntry (t : Thread) (k : TrapKind) : W64 :=
  let chk := bitsAt t.tstat.toNat 16 48
  let pm := match t.mode with | .user => 0 | .super => 1
  BitVec.ofNat 64 (chk * 2 ^ 16 + k.code * 2 ^ 4 + pm)

/-- Trap entry (R329). `tpc` is the address of the trapping instruction, `next` the address of the next instruction not
yet executed. A trap of kind A commits the open strip first; one of kind C or N finds it committed. The divergence is
put aside while the handler runs (log entry 31). -/
def takeTrap (s : State) (k : TrapKind) (c : Cause) (tpc next : W64) : State :=
  let s1 := match k with
    | .R => rollback s
    | .A => commit s
    | .C | .N => s
  let spc := match k with
    | .R => s1.t.arch.pc
    | .C => tpc
    | .A | .N => next
  let t := s1.t
  let t1 : Thread :=
    { t with spc, tpc, tcause := BitVec.ofNat 64 (c.code + c.sub * 2 ^ 8), tval := c.tval, telem := c.telem,
             tstat := tstatEntry t k, mode := .super, arch := { t.arch with pc := t.tvec, vp := none }, wait := .none,
             vpHeld := (t.mode, t.arch.vp) :: t.vpHeld,
             stepArmed := false, stepDue := (match k with | .A => t.stepDue | .R | .C | .N => false) }
  openStrip { s1 with t := t1 } 5

/-! ### How an instruction ends -/

/-- What a meaning answers before the trap machinery: done, a fault to take, a wait, or a stop of the machine. -/
inductive Res where
  | done (s : State)
  /-- the strip rolls back: kind R -/
  | faultR (c : Cause) (s : State)
  /-- a closing instruction's fault after its commit: kind C -/
  | faultC (c : Cause) (s : State)
  /-- the context waits; its instruction executes again when it is ready -/
  | waiting (w : Wait) (s : State)
  /-- an asynchronous fault that the instruction raises again: kind A, at the instruction (R176) -/
  | faultA (c : Cause) (s : State)
  | stop (f : Fault)

/-- Fault of kind R with telem 0. -/
def faultR (code : Nat) (tval : W64) (s : State) : Res := .faultR (.of code tval 0) s

/-- Fault of kind C with telem 0. -/
def faultC (code : Nat) (tval : W64) (s : State) : Res := .faultC (.of code tval 0) s

/-- A single step is due once the stepped instruction has completed (R335). -/
def stepped (t : Thread) : Thread :=
  if t.stepArmed then { t with stepArmed := false, stepDue := true, wait := .none } else { t with wait := .none }

/-- An instruction completes: a step may be due, a wait is over. -/
def complete (s : State) : State := { s with t := stepped s.t }

/-- The outcome of a meaning: the machine's next state, with any fault taken. -/
def finish (r : Res) : Host.Outcome State Fault Refusal :=
  match r with
  | .done s => .next (complete s)
  | .faultR c s => .next (takeTrap s .R c s.t.arch.pc s.t.arch.pc)
  | .faultC c s => .next (takeTrap s .C c s.t.arch.pc s.t.arch.pc)
  | .faultA c s => .next (takeTrap { s with t := { s.t with stepArmed := false } } .A c s.t.arch.pc s.t.arch.pc)
  | .waiting w s => .next { s with t := { s.t with wait := w } }
  | .stop f => .fault f

/-- The PCs of a running group's elements move on together (R125). -/
def groupPc (v : Vp) (pc : W64) : Vp :=
  { v with vpc := (v.vpc.zip (List.range v.vpc.length)).map (fun e => if bitsAt v.group e.2 1 = 1 then pc else e.1) }

/-- Continue at an address: the PC of the thread, and inside a divergent block of the running group (R125). -/
def goTo (s : State) (pc : W64) : State :=
  let a := s.t.arch
  withArch s (match a.vp with
    | none => { a with pc := pc }
    | some v => { a with pc := pc, vp := some { groupPc v pc with count := v.count + 1 } })

/-- Continue at the next instruction word. -/
def nextPc (s : State) : State := goTo s (s.t.arch.pc + 4)

/-- A closing instruction completes: a new strip opens at the next instruction (R238). -/
def closeDone (s : State) : State := openStrip (nextPc s) 1

end Sys2Proof.Machine
end

