-- ==== Sys2Proof/Machine/Operands.lean ====
section
/-! DEFINITION. Operand forms: the checks an instruction passes before it executes, immediates, vector and predicate
operands. -/

namespace Sys2Proof.Machine

open Sys2Proof

/-! ### The checks of R35 step 4 and R43 -/

/-- Opcodes that a VP block may execute (R126); `vld` and `vst` in mode 10 only, `jal` with x0 only. -/
def vpLegal (opc : Nat) (f : Form) : Bool :=
  (decide (0x43 ≤ opc) && decide (opc ≤ 0x53)) || opc == 0x54 || opc == 0x55 || opc == 0x56 || opc == 0x59 || opc == 0x5A
  || (decide (0x67 ≤ opc) && decide (opc ≤ 0x76)) || opc == 0x7C
  || ((opc == 0xC2 || opc == 0xC3) && f.mod.toNat % 4 == 2)
  || (decide (0x2B ≤ opc) && decide (opc ≤ 0x31)) || (opc == 0x29 && f.d == 0)

/-- The first set bit of a bit set, among the first `n`. -/
def firstBit : Nat → Nat → Nat
  | 0, _ => 0
  | n + 1, x => if x % 2 = 1 ∨ x = 0 then 0 else firstBit n (x / 2) + 1

/-- The lowest element of a group. -/
def lowestVp (v : Vp) : Nat := firstBit v.vpc.length v.group

/-- What telem holds of an Illegal instruction: the group's lowest element in a VP block (R126). -/
def illegalElem (s : State) : Nat :=
  match s.t.arch.vp with
  | some v => lowestVp v
  | none => 0

/-- Illegal instruction, kind R, with tval the word under execution (R326). -/
def illegal (s : State) : Res := .faultR (.of 0x01 s.t.iword (illegalElem s)) s

/-- An opcode of the tile range (R41). -/
def isTileOpc (opc : Nat) : Bool := decide (0xA0 ≤ opc) && decide (opc ≤ 0xB0)

/-- Illegal instruction of an opcode. Of a tile instruction of the MCC thread the strip has committed and one has opened
at it (R162, R188 step 1): kind C. -/
def illegalOp (opc : Nat) (s : State) : Res :=
  if isTileOpc opc && s.t.slot == 8 then .faultC (.of 0x01 s.t.iword (illegalElem s)) (openStrip (commit s) 1)
  else illegal s

/-- Privileged instruction, kind R. -/
def privileged (s : State) : Res := .faultR (.of 0x04 s.t.iword 0) s

/-- Constants and modes that an entry rejects (R43): R31, R104, R154, R159, R222, R249, R250, R281, R280, R232, R302. -/
def constsOk (opc : Nat) (f : Form) : Bool :=
  let d := f.d.toNat
  let a := f.a.toNat
  let b := f.b.toNat
  let mode := f.mod.toNat % 4
  if opc = 0x42 then
    elemCodes.contains d && decide (a % 8 ≤ 5) && decide (a / 8 ≤ 2) && decide (b % 8 ≤ 4) && decide (b / 32 = 0)
  else if opc = 0x24 then decide (b ≤ 3)
  else if opc = 0x25 ∨ opc = 0x26 then decide (b ≤ 1)
  else if opc = 0x89 ∨ opc = 0x8A ∨ opc = 0x90 then decide (b ≤ 2)
  else if opc = 0xE1 then decide (b ≤ 1)
  else if opc = 0xD7 then decide (d < 4) && decide (f.mod.toNat / 8 ≠ 2)
  else if opc = 0xD8 ∨ opc = 0xE2 then decide (f.mod.toNat / 8 ≠ 2)
  else if opc = 0xC9 then decide (d ≤ 14)
  else if opc = 0xE7 then decide (16 ≤ d) && decide (d ≤ 23)
  else if opc = 0xC0 ∨ opc = 0xC1 ∨ opc = 0xCA ∨ opc = 0xCB then decide (mode ≤ 1)
  else if opc = 0xC4 then decide (mode ≤ 2)
  else if opc = 0xC5 then decide (mode = 0)
  else if opc = 0xC2 ∨ opc = 0xC3 then decide (mode ≠ 3 ∨ f.a = 0)
  else true

/-- A register field below vnreg, where it names a vector register (R22). -/
def belowVnreg (s : State) (k : FieldKind) (v : Field) : Bool :=
  match k with
  | .v => decide (v.toNat < s.t.arch.vnreg)
  | .unused | .x | .p | .fn | .t | .sm | .ch | .tl | .const | .mem | .fnOrV => true

/-- Every vector register number lies below vnreg (R22, R24). -/
def vregsOk (s : State) (r : OpRow) (f : Form) : Bool :=
  let bk := if r.b == .mem then memKind (f.mod.toNat % 4) else r.b
  belowVnreg s r.d f.d && (f.imm || (belowVnreg s bk f.b && belowVnreg s r.c f.c)) && belowVnreg s r.a f.a

/-- The kind of the current thread executes the opcode (R41). -/
def kindOk (s : State) (r : OpRow) : Bool :=
  match r.kind with
  | .both => true
  | .vec => s.t.slot != 8
  | .mcc => s.t.slot == 8

/-- The checks before an instruction executes: thread kind, VP block, privilege, register ranges, constants. `tret`
checks its mode after its commit (R42). -/
def checkForm (opc : Nat) (f : Form) (s : State) : Option Res :=
  match opRow? opc with
  | none => some (illegal s)
  | some r =>
    if !kindOk s r then some (illegal s)
    else if s.t.arch.vp.isSome && !vpLegal opc f then some (illegal s)
    else if opc = 0xFA ∧ s.t.mode = .user then some (privileged s)
    else if !vregsOk s r f || !constsOk opc f then some (illegalOp opc s)
    else none

/-- The machine can execute an instruction of the current thread. -/
def running (s : State) : Bool := s.powered && s.stage == 7 && !s.bootFail && s.t.live

/-- Execute a form: its checks, then its meaning, then any fault. -/
def runForm (opc : Nat) (f : Form) (s : State) (body : State → Res) : Host.Outcome State Fault Refusal :=
  if !s.powered then .fault .powerOff
  else if s.bootFail || s.stage != 7 then .fault .bootHalted
  else if !s.t.live then .fault .noSuchAgent
  else
    match checkForm opc f s with
    | some r => finish r
    | none => finish (body s)

/-- An instruction that reads memory waits, in a DET launch, until the epoch its thread has fenced has ended (R81); a
context that waits has committed its strip (R276). DEDUCED: it waits whatever its operands are, so a vector load with vl = 0,
which reads nothing (R251), waits too (log entry 8). -/
def afterEpoch (s : State) (body : State → Res) : Res :=
  match myLaunch s with
  | some l => if isDet s ∧ l.epochs < s.t.epoch then .waiting (.epoch s.t.epoch) (openStrip (commit s) 1) else body s
  | none => body s

/-! ### Immediates -/

/-- The second operand of an integer instruction: X[b], or the immediate (R98). -/
def operandY (f : Form) (s : State) : W64 := if f.imm then BitVec.ofInt 64 (imm14 f) else getX s f.b

/-- A branch or jump target: the PC of the instruction plus an offset in words (R106). -/
def branchTarget (s : State) (words : Int) : W64 := s.t.arch.pc + BitVec.ofInt 64 (4 * words)

/-! ### Predicates (R85, R18) -/

/-- P[n] as a bit set: p0 reads all-true. -/
def predBits (s : State) (n : Nat) : Nat :=
  if n = 0 then 2 ^ 4096 - 1 else if h : n < 96 then s.t.arch.p[n] else 0

/-- P[n] := a bit set; writes to p0 are ignored. -/
def setPred (s : State) (n bits : Nat) : State :=
  if h : n < 96 then
    if n = 0 then s else withArch s { s.t.arch with p := s.t.arch.p.set n bits h }
  else s

/-- The elements below vl, those of the running group in a VP block (R126). -/
def groupBits (s : State) : Nat :=
  match s.t.arch.vp with
  | some v => Nat.land v.group (2 ^ s.t.arch.vl - 1)
  | none => 2 ^ s.t.arch.vl - 1

/-- Active(i) for every i, as a bit set (R18, R126). -/
def activeBits (s : State) (f : Form) : Nat :=
  let p := predBits s f.pred.toNat
  Nat.land (groupBits s) (if f.pinv then 2 ^ 4096 - 1 - p % 2 ^ 4096 else p)

/-- The active element indices, ascending. -/
def activeList (s : State) (f : Form) : List Nat :=
  let bits := activeBits s f
  (List.range s.t.arch.vl).filter (fun i => bitsAt bits i 1 == 1)

/-! ### Vector registers (R88, R89) -/

/-- Registers that an operand of `w`-bit elements spans (R89). -/
def spanOf (s : State) (w : Nat) : Nat := max 1 (ceilDiv (vlmax s * w) (regbits s))

/-- The operand's register number is legal for its span (R89). -/
def spanOk (s : State) (r : Field) (w : Nat) : Bool :=
  regbits s != 0 && r.toNat % spanOf s w == 0 && decide (r.toNat + spanOf s w ≤ s.t.arch.vnreg)

/-- V[r][i] of `w` bits. -/
def getV (s : State) (r : Field) (w i : Nat) : Nat :=
  let rb := regbits s
  bitsAt (s.t.arch.v.getD (r.toNat + w * i / rb) 0) (w * i % rb) w

/-- Replace element `i` of `w` bits in a register file of `rb`-bit registers. -/
def putElem (rb : Nat) (v : List Nat) (r w i x : Nat) : List Nat :=
  let n := r + w * i / rb
  setNth v n (setBitsAt (v.getD n 0) (w * i % rb) w x)

/-- V[r][i] := x for each listed pair. -/
def putElems (rb : Nat) (r w : Nat) : List (Nat × Nat) → List Nat → List Nat
  | [], v => v
  | (i, x) :: xs, v => putElems rb r w xs (putElem rb v r w i x)

/-- Write listed elements of a vector operand. -/
def setV (s : State) (r : Field) (w : Nat) (xs : List (Nat × Nat)) : State :=
  withArch s { s.t.arch with v := putElems (regbits s) r.toNat w xs s.t.arch.v }

/-- The element type of a vector instruction: FMT, else vtr.TYPE (R30, R109). -/
def elemType (f : Form) (s : State) : ElemTy := (ElemTy.ofCode f.fmt.toNat).getD (vtrType s)

/-- An override whose width differs from SEW raises Configuration (R30). -/
def fmtFits (f : Form) (s : State) : Bool := f.fmt == 0 || (elemType f s).width == (vtrType s).width

end Sys2Proof.Machine
end

