-- ==== Sys2Proof/Machine/Trans.lean ====
section
/-! DEFINITION. The exact values of the transcendental operations (R74 to R77), enclosed to any precision.

A value is enclosed in fixed point with `p` fraction bits; `enclose` refines it until its leading bits are decided.
The functions are transcendental at every argument R77 does not list, so the remaining part is never zero. -/

namespace Sys2Proof.Machine

/-- Terms `z^(2i+1) / (2i+1)` with signs alternating or not: the sum, and how many terms were added. `pw` is the
power of `z` reached, `z2` the square of `z`, all scaled by `2^p`. -/
def atanLoop : Nat → Nat → Bool → Nat → Nat → Nat → Bool → Int → Nat × Int
  | 0, _, _, _, _, i, _, acc => (i, acc)
  | fuel + 1, p, alt, pw, z2, i, minus, acc =>
    if pw = 0 then (i, acc)
    else
      let term : Int := ((pw / (2 * i + 1) : Nat) : Int)
      atanLoop fuel p alt (pw * z2 / 2 ^ p) z2 (i + 1) (alt && !minus) (if minus then acc - term else acc + term)

/-- atan or atanh of `num / den` below 1/2, scaled by `2^p`, with a bound on its error in units. -/
def atanFrac (alt : Bool) (num den p : Nat) : Int × Nat :=
  let z := num * 2 ^ p / den
  let (n, s) := atanLoop (p + 8) p alt z (z * z / 2 ^ p) 0 false 0
  (s, 8 * (n + 4))

/-- π scaled by `2^p`, with a bound on its error in units (Machin's formula). -/
def piFixed (p : Nat) : Int × Nat :=
  let (a, ea) := atanFrac true 1 5 p
  let (b, eb) := atanFrac true 1 239 p
  (16 * a - 4 * b, 16 * ea + 4 * eb)

/-- ln 2 scaled by `2^p`, with a bound on its error. -/
def ln2Fixed (p : Nat) : Int × Nat :=
  let (a, ea) := atanFrac false 1 3 p
  (2 * a, 2 * ea)

/-- The sum of `y^i / i!` from `i` on, with the number of terms added. -/
def expLoop : Nat → Nat → Nat → Nat → Nat → Nat → Nat × Nat
  | 0, _, _, _, i, acc => (i, acc)
  | fuel + 1, p, y, term, i, acc =>
    if term = 0 then (i, acc)
    else expLoop fuel p y (term * y / (2 ^ p * (i + 1))) (i + 1) (acc + term)

/-- Squaring an enclosure `h` times. -/
def squareLoop : Nat → Nat → Nat × Nat → Nat × Nat
  | 0, _, r => r
  | h + 1, p, (lo, hi) => squareLoop h p (lo * lo / 2 ^ p, hi * hi / 2 ^ p + 1)

/-- `t * 2^k` scaled by `2^p`, rounded down. -/
def fixedOf (t : Nat) (k : Int) (p : Nat) : Nat :=
  let e := k + p
  if e ≥ 0 then t <<< e.toNat else t >>> (-e).toNat

/-- An enclosure of `e^(t * 2^k)`, scaled by `2^p`, for arguments below `2^13`. -/
def expFixed (t : Nat) (k : Int) (p : Nat) : Nat × Nat :=
  let h := (binade t k + 9).toNat
  let y := fixedOf t (k - h) p
  let (n, s) := expLoop (p + 8) p y (2 ^ p) 0 0
  let err := 8 * (n + 4)
  squareLoop h p (s - err, s + err)

/-- The sum of `± r^(2i+1) / (2i+1)!`, for `r` below 7. -/
def sinLoop : Nat → Nat → Nat → Nat → Nat → Bool → Int → Nat × Int
  | 0, _, _, _, i, _, acc => (i, acc)
  | fuel + 1, p, r2, term, i, minus, acc =>
    if term = 0 then (i, acc)
    else sinLoop fuel p r2 (term * r2 / (2 ^ p * ((2 * i + 2) * (2 * i + 3)))) (i + 1) (!minus)
      (if minus then acc - (term : Int) else acc + (term : Int))

/-- The functions of R74 that need enclosures. -/
inductive TransFn where
  | exp | log | sin | tanh
  deriving DecidableEq, Repr

/-- An enclosure, scaled by `2^p`, of `e^x`, `ln x` (of the magnitude), `sin x` or `tanh x` of a nonzero exact value. -/
def transFixed (fn : TransFn) (neg : Bool) (t : Nat) (k : Int) (p : Nat) : Int × Int :=
  match fn with
  | .exp =>
    let (lo, hi) := expFixed t k p
    if neg then
      -- 1 / e^|x|
      (((2 ^ (2 * p) / hi : Nat) : Int), ((2 ^ (2 * p) / (max lo 1) + 1 : Nat) : Int))
    else ((lo : Int), (hi : Int))
  | .log =>
    let e := binade t k
    let d := 2 ^ t.log2
    let (m, em) := atanFrac false (t - d) (t + d) p
    let (l, el) := ln2Fixed p
    let v := e * l + 2 * m
    let err : Int := ((2 * em + e.natAbs * el + 8 : Nat) : Int)
    (v - err, v + err)
  | .sin =>
    let q := p + (binade t k + 8).toNat
    let x := fixedOf t k q
    let (pi, epi) := piFixed q
    let two := (2 * pi).toNat
    let n := x / two
    let r := x % two / 2 ^ (q - p)
    let (i, s) := sinLoop (p + 8) p (r * r / 2 ^ p) r 0 false 0
    let err : Int := ((4096 * (i + 8 + (n + 1) * 2 * epi / 2 ^ (q - p)) : Nat) : Int)
    if neg then (-s - err, -s + err) else (s - err, s + err)
  | .tanh =>
    let (lo, hi) := expFixed t (k + 1) p
    let one := 2 ^ p
    let a := (lo - one) * one / (lo + one)
    let b := (hi - one) * one / (hi + one) + 1
    if neg then (-(b : Int), -(a : Int)) else ((a : Int), (b : Int))

/-- Bits decided of a transcendental value: more than any mantissa. -/
def transBits : Nat := 72

/-- The exact value when an enclosure decides its leading bits. -/
def decideBits (lo hi : Int) (p : Nat) : Option Exact :=
  if (lo > 0 ∧ hi > 0) ∨ (lo < 0 ∧ hi < 0) then
    let a := min lo.natAbs hi.natAbs
    let b := max lo.natAbs hi.natAbs
    let s := b.log2 - transBits
    if b.log2 ≥ transBits ∧ a >>> s = b >>> s then
      some (.val (decide (hi < 0)) (b >>> s) ((s : Int) - p) true)
    else none
  else none

/-- Refine an enclosure, doubling its precision, until it decides the leading bits. -/
def enclose : Nat → TransFn → Bool → Nat → Int → Nat → Exact
  | 0, _, _, _, _, _ => .nan
  | fuel + 1, fn, neg, t, k, p =>
    let (lo, hi) := transFixed fn neg t k p
    match decideBits lo hi p with
    | some v => v
    | none => enclose fuel fn neg t k (2 * p)

/-- A magnitude below every format's, and one above every format's: what e^x is beyond the range of every format. -/
def expExtreme (neg : Bool) : Exact := if neg then .val false 1 (-9000) true else .val false 1 9000 true

/-- The exact value of a transcendental function at an input R77 does not list. -/
def transVal (fn : TransFn) (neg : Bool) (t : Nat) (k : Int) : Exact :=
  match fn with
  | .exp => if binade t k ≥ 12 then expExtreme neg else enclose 8 .exp neg t k 192
  | .log => if t = 2 ^ t.log2 ∧ binade t k = 0 then .zero false else enclose 8 .log false t k 192
  | .sin => enclose 8 .sin neg t k 192
  | .tanh =>
    -- beyond 64 the distance from 1 is below 2^-180
    if binade t k ≥ 6 then .val neg (2 ^ transBits - 1) (-(transBits : Int)) true
    else enclose 8 .tanh neg t k 192

/-- e^x (R77). -/
def Exact.exp : Exact → Exact
  | .nan => .nan
  | .zero _ => .ofInt 1
  | .inf neg => if neg then .zero false else .inf false
  | .val neg t k _ => transVal .exp neg t k

/-- ln x (R77). -/
def Exact.log : Exact → Exact
  | .nan => .nan
  | .zero _ => .inf true
  | .inf neg => if neg then .nan else .inf false
  | .val neg t k _ => if neg then .nan else transVal .log false t k

/-- sin x (R77). -/
def Exact.sin : Exact → Exact
  | .nan => .nan
  | .zero n => .zero n
  | .inf _ => .nan
  | .val neg t k _ => transVal .sin neg t k

/-- tanh x (R77). -/
def Exact.tanh : Exact → Exact
  | .nan => .nan
  | .zero n => .zero n
  | .inf neg => .ofInt (if neg then -1 else 1)
  | .val neg t k _ => transVal .tanh neg t k

/-- 1/x (R77). -/
def Exact.rcp (x : Exact) : Exact := Exact.div (.ofInt 1) x

/-- The reciprocal root of a magnitude: the root of the quotient of a power of two by it. -/
def rsqVal (t : Nat) (k : Int) : Exact :=
  let s0 := 2 * quotBits + t.log2
  let s := if (k + s0) % 2 = 0 then s0 else s0 + 1
  let n := 2 ^ s / t
  let r := isqrt n
  .val false r (-((k + s) / 2)) (!(r * r == n && 2 ^ s % t == 0))

/-- 1/√x (R77). -/
def Exact.rsq : Exact → Exact
  | .nan => .nan
  | .zero n => .inf n
  | .inf neg => if neg then .nan else .zero false
  | .val neg t k _ => if neg then .nan else rsqVal t k

/-- The format of a fast result (R76): `g` fewer mantissa bits. -/
def FloatFmt.narrow (f : FloatFmt) (g : Nat) : FloatFmt :=
  { f with width := f.width - g, mant := f.mant - g }

/-- Round in the narrowed format and put the bits back in place (R76). -/
def FloatFmt.roundFast (f : FloatFmt) (g : Nat) (x : Exact) : Nat :=
  match x with
  | .nan => f.nanCode
  | y => (f.narrow g).round y .rne * 2 ^ g

end Sys2Proof.Machine
end

