-- ==== Sys2Proof/Machine/Flags.lean ====
section
/-! DEFINITION. Rounding and flush control (R59, R63 to R66), and the conditions of comparisons. The X4 keeps no
arithmetic flags (R58). -/

namespace Sys2Proof.Machine

open Sys2Proof

/-- The logical thread id (R65). -/
def logicalId (s : State) : Nat := s.u.index * 16 + s.t.slot

/-- The random word of R64 for an element and an ordinal `j` among the element's roundings. -/
def randomWord (s : State) (elem j : Nat) : Nat :=
  let a := s.t.arch
  philox a.seed.toNat (elem % 65536 + a.ordinal % 65536 * 65536) (bitsAt a.stripSeq 0 32) (bitsAt a.stripSeq 32 32)
    (logicalId s % 2 ^ 32) j

/-- The rounding mode's code in force: a nonzero override, else vtr.RM (R59). -/
def modeCode (f : Form) (s : State) : Nat :=
  let o := f.mod.toNat % 8
  if o = 0 then vtrRm s else o - 1

/-- A mode by its code, with the random word of an element's rounding. -/
def rndOf (s : State) (code elem j : Nat) : Rnd :=
  match code with
  | 0 => .rne
  | 1 => .rtz
  | 2 => .rdn
  | 3 => .rup
  | 4 => .rmm
  | _ => .rsr (randomWord s elem j)

/-- An RSR-rounding instruction counts in the rounding ordinal (R65). -/
def countRsr (code : Nat) (s : State) : State :=
  if code = 5 then withArch s { s.t.arch with ordinal := (s.t.arch.ordinal + 1) % 65536 } else s

/-- The input flush of a type's operand under a flush control (R66). -/
def flushIn (flush : Nat) (t : ElemTy) (x : Exact) : Exact :=
  if flush = 1 ∧ t.flushes then
    match t.fmt with
    | some f => f.flushInput x
    | none => x
  else x

/-- The exact value of an operand of a type, flushed as vtr says. -/
def readFlushed (flush : Nat) (t : ElemTy) (c : Nat) : Exact := flushIn flush t (t.exact c)

/-- Round a value into a floating type or, saturating, an integer type, with the result flush (R60 to R62, R66). -/
def roundTo (flush : Nat) (t : ElemTy) (x : Exact) (mode : Rnd) : Nat :=
  match t.fmt with
  | some f => f.round (if (flush = 1 ∨ flush = 2) ∧ t.flushes then f.flushResult x else x) mode
  | none => wrapTo t.width (x.toIntSat t.intLo t.intHi mode)

/-- A fast result (R76) with the result flush. -/
def roundFastTo (flush : Nat) (t : ElemTy) (g : Nat) (x : Exact) : Nat :=
  match t.fmt with
  | some f => f.roundFast g (if (flush = 1 ∨ flush = 2) ∧ t.flushes then f.flushResult x else x)
  | none => 0

/-- The condition of a comparison by its code (R28, R103): 0 eq, 1 ne, 2 lt, 3 le, 4 gt, 5 ge, 6 uo. -/
def condHolds (code : Nat) (c : Option Int) : Bool :=
  match c with
  | none => code == 1 || code == 6
  | some v =>
    match code with
    | 0 => v == 0
    | 1 => v != 0
    | 2 => decide (v < 0)
    | 3 => decide (v ≤ 0)
    | 4 => decide (v > 0)
    | 5 => decide (v ≥ 0)
    | _ => false

/-- The smaller or larger of two operands (R103, R110), as codes: −0 below +0, one NaN gives the other operand, two
NaNs the canonical NaN. The operands are flushed first where `flush` selects it. -/
def minMaxCode (big : Bool) (flush : Nat) (t : ElemTy) (a b : Nat) : Nat :=
  match t.fmt with
  | none => if big then (if t.intOf a < t.intOf b then b else a) else (if t.intOf b < t.intOf a then b else a)
  | some f =>
    let x := flushIn flush t (f.decode a)
    let y := flushIn flush t (f.decode b)
    -- an operand that was flushed is written as the zero it became
    let ca := if x.isZero then f.round x .rne else a
    let cb := if y.isZero then f.round y .rne else b
    match x.cmp y with
    | none => if x.isNan then (if y.isNan then f.nanCode else cb) else ca
    | some c =>
      let xBelow := decide (c < 0) || (c == 0 && x.sign && !y.sign)
      if big then (if xBelow then cb else ca) else if xBelow then ca else cb

end Sys2Proof.Machine
end

