-- ==== Sys2Proof/Machine/Scalar.lean ====
section
/-! DEFINITION. The scalar range 0x00 to 0x31 (R97 to R108). -/

namespace Sys2Proof.Machine

open Sys2Proof

/-- Write X[d] and continue. -/
def writeX (f : Form) (v : W64) (s : State) : Res := .done (nextPc (setX s f.d v))

/-- An integer operation of X[a] and the second operand (R98). -/
def scalarOp (op : W64 → W64 → W64) (opc : Nat) (f : Form) (s : State) : Host.Outcome State Fault Refusal :=
  runForm opc f s (fun s => writeX f (op (getX s f.a) (operandY f s)) s)

/-- An operation of X[a] alone (R100). -/
def scalarUnary (op : W64 → W64) (opc : Nat) (f : Form) (s : State) : Host.Outcome State Fault Refusal :=
  runForm opc f s (fun s => writeX f (op (getX s f.a)) s)

/-- A truth value as 1 or 0. -/
def boolWord (b : Bool) : W64 := if b then 1 else 0

/-- Shift amount y[5:0]. -/
def shamt (y : W64) : Nat := y.toNat % 64

/-- UDF: Illegal instruction, always (R108). -/
def execUdf (_x : BitVec 23) (s : State) : Host.Outcome State Fault Refusal :=
  runForm 0x00 {} s illegal

/-- ADD (R98). -/
def execAdd (f : Form) (s : State) : Host.Outcome State Fault Refusal := scalarOp (· + ·) 0x01 f s
/-- ADDI (R98). -/
def execAddi (f : Form) (s : State) : Host.Outcome State Fault Refusal := scalarOp (· + ·) 0x01 f s
/-- SUB (R98). -/
def execSub (f : Form) (s : State) : Host.Outcome State Fault Refusal := scalarOp (· - ·) 0x02 f s
/-- AND (R98). -/
def execAnd (f : Form) (s : State) : Host.Outcome State Fault Refusal := scalarOp (· &&& ·) 0x03 f s
/-- ANDI (R98). -/
def execAndi (f : Form) (s : State) : Host.Outcome State Fault Refusal := scalarOp (· &&& ·) 0x03 f s
/-- OR (R98). -/
def execOr (f : Form) (s : State) : Host.Outcome State Fault Refusal := scalarOp (· ||| ·) 0x04 f s
/-- ORI (R98). -/
def execOri (f : Form) (s : State) : Host.Outcome State Fault Refusal := scalarOp (· ||| ·) 0x04 f s
/-- XOR (R98). -/
def execXor (f : Form) (s : State) : Host.Outcome State Fault Refusal := scalarOp (· ^^^ ·) 0x05 f s
/-- XORI (R98). -/
def execXori (f : Form) (s : State) : Host.Outcome State Fault Refusal := scalarOp (· ^^^ ·) 0x05 f s

/-- Left shift by y[5:0]. -/
def shiftLeft (a y : W64) : W64 := a <<< shamt y
/-- Logical right shift by y[5:0]. -/
def shiftRight (a y : W64) : W64 := a >>> shamt y
/-- Arithmetic right shift by y[5:0]. -/
def shiftArith (a y : W64) : W64 := a.sshiftRight (shamt y)

/-- SHL (R98). -/
def execShl (f : Form) (s : State) : Host.Outcome State Fault Refusal := scalarOp shiftLeft 0x06 f s
/-- SHLI (R98). -/
def execShli (f : Form) (s : State) : Host.Outcome State Fault Refusal := scalarOp shiftLeft 0x06 f s
/-- SHR (R98). -/
def execShr (f : Form) (s : State) : Host.Outcome State Fault Refusal := scalarOp shiftRight 0x07 f s
/-- SHRI (R98). -/
def execShri (f : Form) (s : State) : Host.Outcome State Fault Refusal := scalarOp shiftRight 0x07 f s
/-- SRA (R98). -/
def execSra (f : Form) (s : State) : Host.Outcome State Fault Refusal := scalarOp shiftArith 0x08 f s
/-- SRAI (R98). -/
def execSrai (f : Form) (s : State) : Host.Outcome State Fault Refusal := scalarOp shiftArith 0x08 f s
/-- MUL (R98). -/
def execMul (f : Form) (s : State) : Host.Outcome State Fault Refusal := scalarOp (· * ·) 0x09 f s
/-- MULI (R98). -/
def execMuli (f : Form) (s : State) : Host.Outcome State Fault Refusal := scalarOp (· * ·) 0x09 f s

/-- Bits 127 to 64 of the signed product. -/
def mulHigh (a b : W64) : W64 := BitVec.ofInt 64 (a.toInt * b.toInt / (2 ^ 64 : Nat))
/-- Bits 127 to 64 of the unsigned product. -/
def mulHighU (a b : W64) : W64 := BitVec.ofNat 64 (a.toNat * b.toNat / 2 ^ 64)

/-- MULH (R98). -/
def execMulh (f : Form) (s : State) : Host.Outcome State Fault Refusal := scalarOp mulHigh 0x0A f s
/-- MULHU (R98). -/
def execMulhu (f : Form) (s : State) : Host.Outcome State Fault Refusal := scalarOp mulHighU 0x0B f s

/-- Signed quotient truncated towards zero; all ones for a zero divisor (R99). -/
def divSigned (a b : W64) : W64 := if b = 0 then BitVec.allOnes 64 else BitVec.ofInt 64 (a.toInt.tdiv b.toInt)
/-- Unsigned quotient; all ones for a zero divisor (R99). -/
def divUnsigned (a b : W64) : W64 := if b = 0 then BitVec.allOnes 64 else BitVec.ofNat 64 (a.toNat / b.toNat)
/-- Signed remainder with the sign of the dividend; the dividend for a zero divisor (R99). -/
def remSigned (a b : W64) : W64 := if b = 0 then a else BitVec.ofInt 64 (a.toInt.tmod b.toInt)
/-- Unsigned remainder; the dividend for a zero divisor (R99). -/
def remUnsigned (a b : W64) : W64 := if b = 0 then a else BitVec.ofNat 64 (a.toNat % b.toNat)

/-- DIV (R99). -/
def execDiv (f : Form) (s : State) : Host.Outcome State Fault Refusal := scalarOp divSigned 0x0C f s
/-- DIVU (R99). -/
def execDivu (f : Form) (s : State) : Host.Outcome State Fault Refusal := scalarOp divUnsigned 0x0D f s
/-- REM (R99). -/
def execRem (f : Form) (s : State) : Host.Outcome State Fault Refusal := scalarOp remSigned 0x0E f s
/-- REMU (R99). -/
def execRemu (f : Form) (s : State) : Host.Outcome State Fault Refusal := scalarOp remUnsigned 0x0F f s

/-- 1 if signed less than. -/
def setLess (a b : W64) : W64 := boolWord (decide (a.toInt < b.toInt))
/-- 1 if unsigned less than. -/
def setLessU (a b : W64) : W64 := boolWord (decide (a.toNat < b.toNat))

/-- SLT (R98). -/
def execSlt (f : Form) (s : State) : Host.Outcome State Fault Refusal := scalarOp setLess 0x10 f s
/-- SLTI (R98). -/
def execSlti (f : Form) (s : State) : Host.Outcome State Fault Refusal := scalarOp setLess 0x10 f s
/-- SLTU (R98). -/
def execSltu (f : Form) (s : State) : Host.Outcome State Fault Refusal := scalarOp setLessU 0x11 f s
/-- SLTIU (R98). -/
def execSltiu (f : Form) (s : State) : Host.Outcome State Fault Refusal := scalarOp setLessU 0x11 f s

/-- MIN, signed (R98). -/
def execMin (f : Form) (s : State) : Host.Outcome State Fault Refusal :=
  scalarOp (fun a b => if b.toInt < a.toInt then b else a) 0x12 f s
/-- MAX, signed (R98). -/
def execMax (f : Form) (s : State) : Host.Outcome State Fault Refusal :=
  scalarOp (fun a b => if a.toInt < b.toInt then b else a) 0x13 f s
/-- MINU (R98). -/
def execMinu (f : Form) (s : State) : Host.Outcome State Fault Refusal :=
  scalarOp (fun a b => if b.toNat < a.toNat then b else a) 0x14 f s
/-- MAXU (R98). -/
def execMaxu (f : Form) (s : State) : Host.Outcome State Fault Refusal :=
  scalarOp (fun a b => if a.toNat < b.toNat then b else a) 0x15 f s

/-- Number of leading zeros of 64 bits (R100). -/
def leadingZeros (a : W64) : W64 := if a = 0 then 64 else BitVec.ofNat 64 (63 - a.toNat.log2)
/-- Number of trailing zeros of 64 bits (R100). -/
def trailingZeros (a : W64) : W64 := if a = 0 then 64 else BitVec.ofNat 64 (firstBit 64 a.toNat)

/-- CLZ (R100). -/
def execClz (f : Form) (s : State) : Host.Outcome State Fault Refusal := scalarUnary leadingZeros 0x16 f s
/-- CTZ (R100). -/
def execCtz (f : Form) (s : State) : Host.Outcome State Fault Refusal := scalarUnary trailingZeros 0x17 f s
/-- POPC (R100). -/
def execPopc (f : Form) (s : State) : Host.Outcome State Fault Refusal :=
  scalarUnary (fun a => BitVec.ofNat 64 (popCount 64 a.toNat)) 0x18 f s
/-- BREV (R100). -/
def execBrev (f : Form) (s : State) : Host.Outcome State Fault Refusal := scalarUnary BitVec.reverse 0x19 f s

/-- SEL (R101). -/
def execSel (f : Form) (s : State) : Host.Outcome State Fault Refusal :=
  runForm 0x1A f s (fun s => writeX f (if getX s f.c ≠ 0 then getX s f.a else getX s f.b) s)

/-! ### Floating-point scalar instructions (R102 to R104) -/

/-- The type of a scalar floating instruction: FMT 0 means f32 (R27). -/
def scalarType (f : Form) : ElemTy :=
  match f.fmt.toNat with
  | 1 => .f64 | 3 => .bf16 | 4 => .f16 | _ => .f32

/-- An operand of a scalar register: bits [w-1:0], flushed by vtr (R97, R66). -/
def readFx (s : State) (t : ElemTy) (r : Field) : Exact := readFlushed (vtrFlush s) t (getX s r).toNat

/-- Round a scalar result, zero-extend it, and count an RSR rounding (R97, R59, R65). -/
def writeFx (f : Form) (t : ElemTy) (x : Exact) (s : State) : Res :=
  let code := modeCode f s
  let v := roundTo (vtrFlush s) t x (rndOf s code 0 0)
  writeX f (BitVec.ofNat 64 v) (countRsr code s)

/-- The mode by which an exact zero sum takes its sign (R60). -/
def sumMode (f : Form) (s : State) : Rnd := rndOf s (modeCode f s) 0 0

/-- A floating operation of two operands. -/
def scalarFloat (op : Exact → Exact → Rnd → Exact) (opc : Nat) (f : Form) (s : State) :
    Host.Outcome State Fault Refusal :=
  runForm opc f s (fun s =>
    let t := scalarType f
    writeFx f t (op (readFx s t f.a) (readFx s t f.b) (sumMode f s)) s)

/-- FADD (R102). -/
def execFadd (f : Form) (s : State) : Host.Outcome State Fault Refusal := scalarFloat Exact.add 0x1B f s
/-- FSUB (R102). -/
def execFsub (f : Form) (s : State) : Host.Outcome State Fault Refusal :=
  scalarFloat (fun a b m => a.add b.neg m) 0x1C f s
/-- FMUL (R102). -/
def execFmul (f : Form) (s : State) : Host.Outcome State Fault Refusal := scalarFloat (fun a b _ => a.mul b) 0x1D f s
/-- FMA: the addend is X[c] when C is not 0, else X[d] (R102). -/
def execFma (f : Form) (s : State) : Host.Outcome State Fault Refusal :=
  runForm 0x1E f s (fun s =>
    let t := scalarType f
    let e := readFx s t (if f.c = 0 then f.d else f.c)
    writeFx f t (((readFx s t f.a).mul (readFx s t f.b)).add e (sumMode f s)) s)

/-- A quotient or a root, exact or fast (R102, R76): the fast form keeps one mantissa bit fewer and rounds by RNE. A
fast form under a mode of RSR counts as every rounding does (R65). -/
def writeExactOrFast (f : Form) (t : ElemTy) (x : Exact) (s : State) : Res :=
  if f.mod.toNat / 8 % 2 = 1 then
    writeX f (BitVec.ofNat 64 (roundFastTo (vtrFlush s) t 1 x)) (countRsr (modeCode f s) s)
  else writeFx f t x s

/-- FDIV (R102). -/
def execFdiv (f : Form) (s : State) : Host.Outcome State Fault Refusal :=
  runForm 0x1F f s (fun s =>
    let t := scalarType f
    writeExactOrFast f t ((readFx s t f.a).div (readFx s t f.b)) s)
/-- FSQRT (R102). -/
def execFsqrt (f : Form) (s : State) : Host.Outcome State Fault Refusal :=
  runForm 0x20 f s (fun s =>
    let t := scalarType f
    writeExactOrFast f t (readFx s t f.a).sqrt s)

/-- FMIN or FMAX (R103). -/
def scalarMinMax (big : Bool) (opc : Nat) (f : Form) (s : State) : Host.Outcome State Fault Refusal :=
  runForm opc f s (fun s =>
    let t := scalarType f
    let v := minMaxCode big (vtrFlush s) t (bitsAt (getX s f.a).toNat 0 t.width) (bitsAt (getX s f.b).toNat 0 t.width)
    writeX f (BitVec.ofNat 64 v) s)

/-- FMIN (R103). -/
def execFmin (f : Form) (s : State) : Host.Outcome State Fault Refusal := scalarMinMax false 0x21 f s
/-- FMAX (R103). -/
def execFmax (f : Form) (s : State) : Host.Outcome State Fault Refusal := scalarMinMax true 0x22 f s
/-- FCMP (R103). -/
def execFcmp (f : Form) (s : State) : Host.Outcome State Fault Refusal :=
  runForm 0x23 f s (fun s =>
    let t := scalarType f
    writeX f (boolWord (condHolds (f.mod.toNat % 8) ((readFx s t f.a).cmp (readFx s t f.b)))) s)

/-- The source type of FCVT by its constant (R104). -/
def fcvtSource (b : Field) : ElemTy :=
  match b.toNat with
  | 1 => .f64 | 2 => .bf16 | 3 => .f16 | _ => .f32

/-- FCVT (R104). -/
def execFcvt (f : Form) (s : State) : Host.Outcome State Fault Refusal :=
  runForm 0x24 f s (fun s => writeFx f (scalarType f) (readFx s (fcvtSource f.b) f.a) s)

/-- The integer type of FICVT and IFCVT by its constant (R104). -/
def icvtType (b : Field) : ElemTy := if b = 0 then .i64 else .un64

/-- FICVT (R104). -/
def execFicvt (f : Form) (s : State) : Host.Outcome State Fault Refusal :=
  runForm 0x25 f s (fun s => writeFx f (icvtType f.b) (readFx s (scalarType f) f.a) s)
/-- IFCVT (R104). -/
def execIfcvt (f : Form) (s : State) : Host.Outcome State Fault Refusal :=
  runForm 0x26 f s (fun s => writeFx f (scalarType f) ((icvtType f.b).exact (getX s f.a).toNat) s)

/-! ### Constants, jumps and branches (R105 to R107) -/

/-- The wide constant of LDHI and ADDPC (R105). -/
def wideConst (f : Form) : W64 := BitVec.ofInt 64 (imm21 f * 2048)

/-- LDHI (R105). -/
def execLdhi (f : Form) (s : State) : Host.Outcome State Fault Refusal :=
  runForm 0x27 f s (fun s => writeX f (wideConst f) s)
/-- ADDPC (R105). -/
def execAddpc (f : Form) (s : State) : Host.Outcome State Fault Refusal :=
  runForm 0x28 f s (fun s => writeX f (s.t.arch.pc + wideConst f) s)
/-- JAL (R106). -/
def execJal (f : Form) (s : State) : Host.Outcome State Fault Refusal :=
  runForm 0x29 f s (fun s => .done (goTo (setX s f.d (s.t.arch.pc + 4)) (branchTarget s (imm21 f))))
/-- JALR (R106). -/
def execJalr (f : Form) (s : State) : Host.Outcome State Fault Refusal :=
  runForm 0x2A f s (fun s =>
    let t := getX s f.a + BitVec.ofInt 64 (imm14 f)
    if t.toNat % 4 ≠ 0 then faultR 0x06 t s
    else .done (goTo (setX s f.d (s.t.arch.pc + 4)) t))

/-- A conditional branch on X[d] and X[a], the two compared registers of the long form (R26, R106). -/
def branchIf (cond : W64 → W64 → Bool) (opc : Nat) (f : Form) (s : State) : Host.Outcome State Fault Refusal :=
  runForm opc f s (fun s =>
    if cond (getX s f.d) (getX s f.a) then .done (goTo s (branchTarget s (imm14 f))) else .done (nextPc s))

/-- BEQ (R106). -/
def execBeq (f : Form) (s : State) : Host.Outcome State Fault Refusal := branchIf (fun a b => a == b) 0x2B f s
/-- BNE (R106). -/
def execBne (f : Form) (s : State) : Host.Outcome State Fault Refusal := branchIf (fun a b => a != b) 0x2C f s
/-- BLT (R106). -/
def execBlt (f : Form) (s : State) : Host.Outcome State Fault Refusal :=
  branchIf (fun a b => decide (a.toInt < b.toInt)) 0x2D f s
/-- BGE (R106). -/
def execBge (f : Form) (s : State) : Host.Outcome State Fault Refusal :=
  branchIf (fun a b => decide (b.toInt ≤ a.toInt)) 0x2E f s
/-- BLTU (R106). -/
def execBltu (f : Form) (s : State) : Host.Outcome State Fault Refusal :=
  branchIf (fun a b => decide (a.toNat < b.toNat)) 0x2F f s
/-- BGEU (R106). -/
def execBgeu (f : Form) (s : State) : Host.Outcome State Fault Refusal :=
  branchIf (fun a b => decide (b.toNat ≤ a.toNat)) 0x30 f s

/-- The running groups: the VPs whose PC equals that of a running element (R125). -/
def groupAt (v : Vp) (pc : W64) : Nat :=
  ((v.vpc.zip (List.range v.vpc.length)).filter (fun e => bitsAt v.run e.2 1 == 1 && e.1 == pc)).foldl
    (fun acc e => acc + 2 ^ e.2) 0

/-- The least running element above `above`, or the least of all where there is none (R125). -/
def nextLowest (v : Vp) (above : Option Nat) : Option Nat :=
  let run := (List.range v.vpc.length).filter (fun i => bitsAt v.run i 1 == 1)
  -- the lowest elements of the groups
  let lows := run.filter (fun i => firstBit v.vpc.length (groupAt v (v.vpc.getD i 0)) == i)
  match above with
  | none => lows.head?
  | some a => match lows.find? (fun i => decide (a < i)) with
    | some i => some i
    | none => lows.head?

/-- Choose the next group to run, after a group whose lowest element was `above` (R125); the thread continues at the
join address when no VP runs. -/
def chooseGroup (a : Arch) (v : Vp) (above : Option Nat) : Arch :=
  match nextLowest v above with
  | none => { a with pc := v.joinPc, vp := none }
  | some i =>
    let pc := v.vpc.getD i 0
    { a with pc := pc, vp := some { v with group := groupAt v pc, count := 0 } }

/-- The test of BP over a predicate's active bits (R107): any, none, all. -/
def bpTaken (test n vl : Nat) : Bool :=
  match test with
  | 0 => decide (n > 0)
  | 1 => n == 0
  | _ => n == vl

/-- BP inside a VP block: each VP of the group tests its own bit, and a split group stops (R126, R125). -/
def bpVp (f : Form) (v : Vp) (s : State) : State :=
  let a := s.t.arch
  let bits := predBits s f.d.toNat
  let target := branchTarget s (imm21 f)
  let dest (i : Nat) : W64 := if bpTaken (f.mod.toNat % 4) (bitsAt bits i 1) 1 then target else a.pc + 4
  let idx := (List.range v.vpc.length).filter (fun i => bitsAt v.group i 1 == 1)
  let vpc := (v.vpc.zip (List.range v.vpc.length)).map (fun e => if bitsAt v.group e.2 1 = 1 then dest e.2 else e.1)
  let v1 := { v with vpc := vpc, count := v.count + 1 }
  match idx with
  | [] => s
  | i :: rest =>
    if rest.all (fun j => dest j == dest i) then withArch s { a with pc := dest i, vp := some v1 }
    else withArch s (chooseGroup a v1 (some (lowestVp v)))

/-- BP (R107, R126). On the MCC thread only p0 is accepted, read as a single true bit. -/
def execBp (f : Form) (s : State) : Host.Outcome State Fault Refusal :=
  runForm 0x31 f s (fun s =>
    if f.mod.toNat % 4 = 3 then illegal s
    else if s.t.slot = 8 then
      if f.d ≠ 0 then illegal s
      else if bpTaken (f.mod.toNat % 4) 1 1 then .done (goTo s (branchTarget s (imm21 f))) else .done (nextPc s)
    else
      match s.t.arch.vp with
      | some v => .done (bpVp f v s)
      | none =>
        let vl := s.t.arch.vl
        let n := popCount vl (predBits s f.d.toNat)
        if bpTaken (f.mod.toNat % 4) n vl then .done (goTo s (branchTarget s (imm21 f))) else .done (nextPc s))

end Sys2Proof.Machine
end

