-- ==== Sys2Proof/Machine/Vector.lean ====
section
/-! DEFINITION. The vector range 0x40 to 0x7D: configuration, element-wise instructions, rearrangement, reductions,
transcendentals, predicates and divergence (R86 to R128). Strips, grants and lane changes at `setvl` stand here too. -/

namespace Sys2Proof.Machine

open Sys2Proof

/-- Configuration, kind R, with tval 0 and telem 0. -/
def config (s : State) : Res := faultR 0x10 0 s

/-! ### Configuration instructions (R90 to R96) -/

/-- The grant of a request against a maximum `m` in blocks of `B` (R90). -/
def grantOf (n m B : Nat) : Nat := if n ≤ m then n else if m ≥ B then m - m % B else m

/-- The lane share that a context's `setvl` takes (R273, R290): a pending reduction becomes the share, and of a pending
increase the lanes that nobody holds are taken. `sib` is the share that the sibling context holds. -/
def shareAfter (own pend sib : Nat) : Nat :=
  if pend = 0 then own else if pend ≤ own then pend else max own (min pend (64 - sib))

/-- The sibling's thread on the same core, when it is resident (R255). -/
def siblingOf (s : State) : Option Thread :=
  if 8 ≤ s.t.slot ∨ 32 < recordLanes s then none
  else
    let slot := if s.t.slot % 2 = 0 then s.t.slot + 1 else s.t.slot - 1
    s.u.threads.find? (fun r => r.slot == slot && r.live)

/-- The share that the sibling holds; 0 when none is resident. -/
def siblingShare (s : State) : Nat :=
  match siblingOf s with
  | some r => if r.away then 0 else r.own
  | none => 0

/-- The core of the current thread, die × 128 + cluster × 4 + core (R345). -/
def myCore (s : State) : Nat :=
  let core := if recordLanes s ≤ 32 then s.t.slot / 2 else s.t.slot
  myCluster s / 32 * 128 + myCluster s % 32 * 4 + core

/-- Lanes in the order that a number picks. -/
def pickLanes : Nat → Nat → List Nat → List Nat
  | 0, _, _ => []
  | n + 1, k, ls => ls.getD (k % ls.length) 0 :: pickLanes n (k / ls.length) (ls.eraseIdx (k % ls.length))

/-- A physical lane of the core lies in the context's share: in a core's order of its lanes, which is free (log entry 21),
an even slot holds the first and an odd slot the last, so that two shares never meet. -/
def inShare (s : State) (own lane : Nat) : Bool :=
  let place := (pickLanes 64 (Config.laneOrder (myCore s)) (List.range 64)).idxOf lane
  if s.t.slot % 2 = 1 ∧ recordLanes s ≤ 32 then decide (64 ≤ place + own) else decide (place < own)

/-- The retired lanes of the current thread's core (R341). -/
def retiredHere (s : State) : List Nat :=
  ((s.flash.lanes.filter (fun e => e.1 == myCore s)).map (fun e => e.2)).eraseDups

/-- How many lanes of a share are in service (R341). -/
def lanesInService (s : State) (own : Nat) : Nat := own - ((retiredHere s).filter (inShare s own)).length

/-- A register file with registers of another length: the low bits kept, new bits zero (R273). -/
def resizeRegs (v : List Nat) (bits : Nat) : List Nat := v.map (fun x => x % 2 ^ bits)

/-- Registers held to the lanes in force: each vector register keeps its low bits and each predicate the bits below vlmax
(R273). -/
def heldRegs (s : State) (a : Arch) : Arch :=
  { a with v := resizeRegs a.v (regbits s), p := a.p.map (fun x => x % 2 ^ vlmax s) }

/-- The current thread with the lanes of a share, less those retired (R341). -/
def withLanes (own : Nat) (s : State) : State := { s with t := { s.t with own := own, lanes := lanesInService s own } }

/-- Take a pending share and any retired lanes at a `setvl` (R273, R341): the register contents shrink to the new
length. A DET context keeps its logical lanes. Predicate bits at and above a lowered vlmax are cleared here, and kept by
`vsetty` (log entry 37). -/
def takeShare (s : State) : State :=
  if isDet s then s
  else
    let own := shareAfter s.t.own s.t.pend (siblingShare s)
    let s1 := withLanes own { s with t := { s.t with pend := if own = s.t.pend then 0 else s.t.pend } }
    withArch s1 (heldRegs s1 s1.t.arch)

/-- Granules that the function registers hold (R145). -/
def fnUsed (a : Arch) : Nat := a.fn.toList.foldl (fun acc r => acc + r.gran) 0

/-- The context's share of the function pool (R142). -/
def fnShare (s : State) : Nat := 2 * (if isDet s then recordLanes s else s.t.own)

/-- VCFG (R95). Function registers become empty (R129). -/
def execVcfg (f : Form) (s : State) : Host.Outcome State Fault Refusal :=
  runForm 0x41 f s (fun s =>
    let s1 := commit s
    let n := (getX s f.a).toNat
    if n = 8 ∨ n = 16 ∨ n = 32 ∨ n = 64 then
      .done (closeDone (withArch s1 { s1.t.arch with
        vnreg := n, v := List.replicate n 0, p := Vector.replicate 96 0, fn := Vector.replicate 16 .empty, vl := 0 }))
    else faultC 0x10 0 s1)

/-- vtr takes new fields, and vl is held to the new vlmax (R96). -/
def setVtr (s : State) (v : W64) : State :=
  let s1 := withArch s { s.t.arch with vtr := v }
  withArch s1 { s1.t.arch with vl := min s1.t.arch.vl (vlmax s1) }

/-- VSETTY (R96, R31). -/
def execVsetty (f : Form) (s : State) : Host.Outcome State Fault Refusal :=
  runForm 0x42 f s (fun s =>
    let ty := (ElemTy.ofCode f.d.toNat).getD .f32
    let a := f.a.toNat
    let b := f.b.toNat
    .done (nextPc (setVtr s (vtrWord ty (a % 8) (a / 8 % 4) (b % 8) (b / 8 % 4)))))

/-! ### Element-wise instructions (R109 to R115) -/

/-- Run a vector instruction of one element type over its operands: the override fits, the operands span legally, the
type is accepted; then each active element is written, and the rounding counts under RSR. -/
def elemWise (opc : Nat) (f : Form) (s : State) (operands : List Field) (accepts : ElemTy → Bool)
    (rounds : ElemTy → Bool) (value : State → ElemTy → Nat → Nat) : Host.Outcome State Fault Refusal :=
  runForm opc f s (fun s =>
    let t := elemType f s
    let w := t.width
    if !fmtFits f s then config s
    else if !(operands.all (fun r => spanOk s r w)) then illegal s
    else if !accepts t then config s
    else
      let xs := (activeList s f).map (fun i => (i, value s t i))
      let s1 := setV s f.d w xs
      .done (nextPc (if rounds t then countRsr (modeCode f s) s1 else s1)))

/-- Every type. -/
def anyType (_ : ElemTy) : Bool := true
/-- Integer types only. -/
def intOnly (t : ElemTy) : Bool := !t.isFloat
/-- Nothing is rounded. -/
def noRound (_ : ElemTy) : Bool := false

/-- Arithmetic on two operands: wrapping on integers, rounded once on floats. -/
def arith2 (opc : Nat) (f : Form) (s : State) (iop : Int → Int → Int) (fop : Exact → Exact → Rnd → Exact) :
    Host.Outcome State Fault Refusal :=
  elemWise opc f s [f.d, f.a, f.b] anyType ElemTy.isFloat (fun s t i =>
    let a := getV s f.a t.width i
    let b := getV s f.b t.width i
    if t.isFloat then
      let m := rndOf s (modeCode f s) i 0
      let fl := vtrFlush s
      roundTo fl t (fop (readFlushed fl t a) (readFlushed fl t b) m) m
    else wrapTo t.width (iop (t.intOf a) (t.intOf b)))

/-- Fused arithmetic: the addend is V[c] when C is not 0, else V[d] (R110). -/
def arith3 (opc : Nat) (f : Form) (s : State) (sub : Bool) : Host.Outcome State Fault Refusal :=
  let r := if f.c = 0 then f.d else f.c
  elemWise opc f s [f.d, f.a, f.b, r] anyType ElemTy.isFloat (fun s t i =>
    let a := getV s f.a t.width i
    let b := getV s f.b t.width i
    let e := getV s r t.width i
    if t.isFloat then
      let m := rndOf s (modeCode f s) i 0
      let fl := vtrFlush s
      let x := readFlushed fl t e
      roundTo fl t (((readFlushed fl t a).mul (readFlushed fl t b)).add (if sub then x.neg else x) m) m
    else
      let p := t.intOf a * t.intOf b
      wrapTo t.width (if sub then p - t.intOf e else p + t.intOf e))

/-- VADD (R110). -/
def execVadd (f : Form) (s : State) : Host.Outcome State Fault Refusal := arith2 0x43 f s (· + ·) Exact.add
/-- VSUB (R110). -/
def execVsub (f : Form) (s : State) : Host.Outcome State Fault Refusal :=
  arith2 0x44 f s (· - ·) (fun a b m => a.add b.neg m)
/-- VMUL (R110). -/
def execVmul (f : Form) (s : State) : Host.Outcome State Fault Refusal :=
  arith2 0x45 f s (· * ·) (fun a b _ => a.mul b)
/-- VFMA (R110). -/
def execVfma (f : Form) (s : State) : Host.Outcome State Fault Refusal := arith3 0x46 f s false
/-- VFMS (R110). -/
def execVfms (f : Form) (s : State) : Host.Outcome State Fault Refusal := arith3 0x47 f s true

/-- The integer quotient at a type's width, by the cases of R99. -/
def intDiv (t : ElemTy) (a b : Nat) : Nat :=
  if t.intOf b = 0 then 2 ^ t.width - 1 else wrapTo t.width ((t.intOf a).tdiv (t.intOf b))

/-- A quotient or a root of an element, exact or fast (R110, R76). The guard bit of the fast form is 1 for every type, which
R76 gives for FP64, FP32, BF16 and FP16 alone (log entry 41). -/
def roundMaybeFast (f : Form) (s : State) (t : ElemTy) (x : Exact) (i : Nat) : Nat :=
  if f.mod.toNat / 8 % 2 = 1 then roundFastTo (vtrFlush s) t 1 x
  else roundTo (vtrFlush s) t x (rndOf s (modeCode f s) i 0)

/-- VDIV (R110). -/
def execVdiv (f : Form) (s : State) : Host.Outcome State Fault Refusal :=
  elemWise 0x48 f s [f.d, f.a, f.b] anyType ElemTy.isFloat (fun s t i =>
    let a := getV s f.a t.width i
    let b := getV s f.b t.width i
    let fl := vtrFlush s
    if t.isFloat then roundMaybeFast f s t ((readFlushed fl t a).div (readFlushed fl t b)) i else intDiv t a b)
/-- VSQRT: floating types only (R110). -/
def execVsqrt (f : Form) (s : State) : Host.Outcome State Fault Refusal :=
  elemWise 0x49 f s [f.d, f.a] ElemTy.isFloat ElemTy.isFloat (fun s t i =>
    roundMaybeFast f s t (readFlushed (vtrFlush s) t (getV s f.a t.width i)).sqrt i)
/-- VMIN (R110). -/
def execVmin (f : Form) (s : State) : Host.Outcome State Fault Refusal :=
  elemWise 0x4A f s [f.d, f.a, f.b] anyType noRound (fun s t i =>
    minMaxCode false (vtrFlush s) t (getV s f.a t.width i) (getV s f.b t.width i))
/-- VMAX (R110). -/
def execVmax (f : Form) (s : State) : Host.Outcome State Fault Refusal :=
  elemWise 0x4B f s [f.d, f.a, f.b] anyType noRound (fun s t i =>
    minMaxCode true (vtrFlush s) t (getV s f.a t.width i) (getV s f.b t.width i))
/-- VABS: the sign bit cleared on floats (R110, R68). -/
def execVabs (f : Form) (s : State) : Host.Outcome State Fault Refusal :=
  elemWise 0x4C f s [f.d, f.a] anyType noRound (fun s t i =>
    let a := getV s f.a t.width i
    if t.isFloat then a % 2 ^ (t.width - 1) else wrapTo t.width ((t.intOf a).natAbs : Int))
/-- VNEG: the sign bit inverted on floats (R110, R68). -/
def execVneg (f : Form) (s : State) : Host.Outcome State Fault Refusal :=
  elemWise 0x4D f s [f.d, f.a] anyType noRound (fun s t i =>
    let a := getV s f.a t.width i
    if t.isFloat then (a + 2 ^ (t.width - 1)) % 2 ^ t.width else wrapTo t.width (-(t.intOf a)))

/-- An operation on the raw bits of two elements. -/
def bits2 (opc : Nat) (f : Form) (s : State) (accepts : ElemTy → Bool) (op : ElemTy → Nat → Nat → Nat) :
    Host.Outcome State Fault Refusal :=
  elemWise opc f s [f.d, f.a, f.b] accepts noRound (fun s t i =>
    op t (getV s f.a t.width i) (getV s f.b t.width i))

/-- VAND (R111). -/
def execVand (f : Form) (s : State) : Host.Outcome State Fault Refusal := bits2 0x4E f s anyType (fun _ => Nat.land)
/-- VOR (R111). -/
def execVor (f : Form) (s : State) : Host.Outcome State Fault Refusal := bits2 0x4F f s anyType (fun _ => Nat.lor)
/-- VXOR (R111). -/
def execVxor (f : Form) (s : State) : Host.Outcome State Fault Refusal := bits2 0x50 f s anyType (fun _ => Nat.xor)
/-- VSHL: integer types only (R111). -/
def execVshl (f : Form) (s : State) : Host.Outcome State Fault Refusal :=
  bits2 0x51 f s intOnly (fun t a b => a * 2 ^ (b % t.width) % 2 ^ t.width)
/-- VSHR (R111). -/
def execVshr (f : Form) (s : State) : Host.Outcome State Fault Refusal :=
  bits2 0x52 f s intOnly (fun t a b => a / 2 ^ (b % t.width))
/-- VSRA: copies of the sign bit whatever the signedness (R111). -/
def execVsra (f : Form) (s : State) : Host.Outcome State Fault Refusal :=
  bits2 0x53 f s intOnly (fun t a b => wrapTo t.width (signedOf t.width a / ((2 ^ (b % t.width) : Nat) : Int)))

/-- Replace the listed bits of a predicate. -/
def writePred (s : State) (n : Nat) (at_ : List Nat) (value : Nat → Bool) : State :=
  let old := predBits s n
  setPred s n (at_.foldl (fun acc i => setBitsAt acc i 1 (if value i then 1 else 0)) old)

/-- VCMP (R112). -/
def execVcmp (f : Form) (s : State) : Host.Outcome State Fault Refusal :=
  runForm 0x54 f s (fun s =>
    let t := elemType f s
    let code := f.mod.toNat % 8
    if !fmtFits f s then config s
    else if !(spanOk s f.a t.width && spanOk s f.b t.width) || (code == 6 && !t.isFloat) then illegal s
    else
      let fl := vtrFlush s
      .done (nextPc (writePred s f.d.toNat (activeList s f) (fun i =>
        condHolds code ((readFlushed fl t (getV s f.a t.width i)).cmp (readFlushed fl t (getV s f.b t.width i)))))))

/-- VSEL: every element below vl, by its mask bit (R112). -/
def execVsel (f : Form) (s : State) : Host.Outcome State Fault Refusal :=
  runForm 0x55 f s (fun s =>
    let t := elemType f s
    let w := t.width
    if !fmtFits f s then config s
    else if !([f.d, f.a, f.b].all (fun r => spanOk s r w)) then illegal s
    else
      let bits := activeBits s f
      let all := activeList s { f with pred := 0, pinv := false }
      .done (nextPc (setV s f.d w (all.map (fun i =>
        (i, getV s (if bitsAt bits i 1 = 1 then f.a else f.b) w i))))))

/-- The value of an element converted to another type (R114). -/
def convertElem (fl : Nat) (src dst : ElemTy) (c : Nat) (m : Rnd) : Nat :=
  if src.isFloat then roundTo fl dst (readFlushed fl src c) m
  else if dst.isFloat then roundTo fl dst (src.exact c) m
  else wrapTo dst.width (clampTo dst.intLo dst.intHi (src.intOf c))

/-- The type that VWID widens to without an override (R113). -/
def widened : ElemTy → Option ElemTy
  | .e2m1 => some .e4m3 | .i4 => some .i8 | .un4 => some .un8 | .e4m3 => some .f16 | .e5m2 => some .f16
  | .i8 => some .i16 | .un8 => some .un16 | .bf16 => some .f32 | .f16 => some .f32 | .i16 => some .i32
  | .un16 => some .un32 | .f32 => some .f64 | .i32 => some .i64 | .un32 => some .un64
  | _ => none

/-- The type that VNAR narrows to without an override (R113). -/
def narrowed : ElemTy → Option ElemTy
  | .f64 => some .f32 | .f32 => some .bf16 | .i64 => some .i32 | .un64 => some .un32 | .i32 => some .i16
  | .un32 => some .un16 | .bf16 => some .e4m3 | .f16 => some .e4m3 | .i16 => some .i8 | .un16 => some .un8
  | .i8 => some .i4 | .un8 => some .un4
  | _ => none

/-- A conversion from vtr.TYPE to a destination type (R113, R114). DESIGN CHOICE (log entry 45): where the destination's
registers meet the source's, the source is read in full before an element is written, as in R116 and R117. -/
def convertVec (opc : Nat) (f : Form) (s : State) (dst : ElemTy → Option ElemTy) (widthOk : Nat → Nat → Bool) :
    Host.Outcome State Fault Refusal :=
  runForm opc f s (fun s =>
    let src := vtrType s
    match (if f.fmt = 0 then dst src else ElemTy.ofCode f.fmt.toNat) with
    | none => config s
    | some d =>
      if !widthOk d.width src.width then config s
      else if !(spanOk s f.d d.width && spanOk s f.a src.width) then illegal s
      else
        let code := modeCode f s
        let xs := (activeList s f).map (fun i =>
          (i, convertElem (vtrFlush s) src d (getV s f.a src.width i) (rndOf s code i 0)))
        let s1 := setV s f.d d.width xs
        .done (nextPc (if src.isFloat || d.isFloat then countRsr code s1 else s1)))

/-- VCVT (R113, R114). -/
def execVcvt (f : Form) (s : State) : Host.Outcome State Fault Refusal := convertVec 0x56 f s some (fun d w => d == w)
/-- VWID (R113, R114). -/
def execVwid (f : Form) (s : State) : Host.Outcome State Fault Refusal :=
  convertVec 0x57 f s widened (fun d w => decide (w < d))
/-- VNAR (R113, R114). -/
def execVnar (f : Form) (s : State) : Host.Outcome State Fault Refusal :=
  convertVec 0x58 f s narrowed (fun d w => decide (d < w))

/-- VSPLAT (R115). -/
def execVsplat (f : Form) (s : State) : Host.Outcome State Fault Refusal :=
  elemWise 0x59 f s [f.d] anyType noRound (fun s t _ => bitsAt (getX s f.a).toNat 0 t.width)
/-- VIDX (R115). -/
def execVidx (f : Form) (s : State) : Host.Outcome State Fault Refusal :=
  elemWise 0x5A f s [f.d] anyType ElemTy.isFloat (fun s t i =>
    if t.isFloat then roundTo (vtrFlush s) t (.ofInt i) (rndOf s (modeCode f s) i 0) else i % 2 ^ t.width)

/-- The element that a cross-lane read returns: vfill for an index outside 0 to vl − 1 (R94). -/
def crossRead (s : State) (r : Field) (w : Nat) (i : Int) : Nat :=
  if 0 ≤ i ∧ i < (s.t.arch.vl : Int) then getV s r w i.toNat else bitsAt s.t.arch.vfill.toNat 0 w

/-- VEXT (R115). -/
def execVext (f : Form) (s : State) : Host.Outcome State Fault Refusal :=
  runForm 0x5B f s (fun s =>
    let w := (elemType f s).width
    if !fmtFits f s then config s
    else if !spanOk s f.a w then illegal s
    else writeX f (BitVec.ofNat 64 (crossRead s f.a w ((getX s f.b).toNat : Int))) s)
/-- VINS (R115): writes whatever vl is; an index at or above vlmax changes nothing. -/
def execVins (f : Form) (s : State) : Host.Outcome State Fault Refusal :=
  runForm 0x5C f s (fun s =>
    let w := (elemType f s).width
    if !fmtFits f s then config s
    else if !spanOk s f.d w then illegal s
    else
      let t := (getX s f.b).toNat
      .done (nextPc (if t < vlmax s then setV s f.d w [(t, bitsAt (getX s f.a).toNat 0 w)] else s)))

/-! ### Rearrangement (R116, R117) -/

/-- VSLIDE (R116). -/
def execVslide (f : Form) (s : State) : Host.Outcome State Fault Refusal :=
  elemWise 0x5D f s [f.d, f.a] anyType noRound (fun s t i =>
    crossRead s f.a t.width ((i : Int) + (getX s f.b).toInt))
/-- VPERM (R116). -/
def execVperm (f : Form) (s : State) : Host.Outcome State Fault Refusal :=
  elemWise 0x5E f s [f.d, f.a, f.b] anyType noRound (fun s t i =>
    crossRead s f.a t.width ((getV s f.b t.width i : Nat) : Int))
/-- VSHAPE (R116): with vl above 0, c must divide vl. -/
def execVshape (f : Form) (s : State) : Host.Outcome State Fault Refusal :=
  runForm 0x5F f s (fun s =>
    let w := (elemType f s).width
    let vl := s.t.arch.vl
    let c := (getX s f.b).toNat
    if !fmtFits f s then config s
    else if !(spanOk s f.d w && spanOk s f.a w) then illegal s
    else if vl = 0 then .done (nextPc s)
    else if c = 0 ∨ vl % c ≠ 0 then config s
    else
      let r := vl / c
      .done (nextPc (setV s f.d w ((activeList s f).map (fun i => (i, getV s f.a w (i % r * c + i / r)))))))

/-- VCOMPRESS (R117). -/
def execVcompress (f : Form) (s : State) : Host.Outcome State Fault Refusal :=
  runForm 0x60 f s (fun s =>
    let w := (elemType f s).width
    if !fmtFits f s then config s
    else if !(spanOk s f.d w && spanOk s f.a w) then illegal s
    else
      let act := activeList s f
      .done (nextPc (setV s f.d w ((List.range act.length).zip (act.map (getV s f.a w))))))
/-- VEXPAND (R117). -/
def execVexpand (f : Form) (s : State) : Host.Outcome State Fault Refusal :=
  runForm 0x61 f s (fun s =>
    let w := (elemType f s).width
    if !fmtFits f s then config s
    else if !(spanOk s f.d w && spanOk s f.a w) then illegal s
    else
      let act := activeList s f
      .done (nextPc (setV s f.d w (act.zip ((List.range act.length).map (getV s f.a w))))))

/-! ### Reductions and dot products (R118 to R121) -/

/-- One sum of codes, rounded for an element index: wrapping on integers. -/
def sumElem (f : Form) (s : State) (t : ElemTy) (x y idx : Nat) : Nat :=
  if t.isFloat then
    let m := rndOf s (modeCode f s) idx 0
    let fl := vtrFlush s
    roundTo fl t ((readFlushed fl t x).add (readFlushed fl t y) m) m
  else (x + y) % 2 ^ t.width

/-- A reduction writes element 0 of vd; its seed is element 0 of vb (R118). -/
def reduction (opc : Nat) (f : Form) (s : State) (rounds : Bool) (value : State → ElemTy → Nat → List Nat → Nat) :
    Host.Outcome State Fault Refusal :=
  runForm opc f s (fun s =>
    let t := elemType f s
    let w := t.width
    if !fmtFits f s then config s
    else if !([f.d, f.a, f.b].all (fun r => spanOk s r w)) then illegal s
    else
      let s1 := setV s f.d w [(0, value s t (getV s f.b w 0) (activeList s f))]
      .done (nextPc (if rounds && t.isFloat then countRsr (modeCode f s) s1 else s1)))

/-- VREDSUM: the ordered sum (R118). -/
def execVredsum (f : Form) (s : State) : Host.Outcome State Fault Refusal :=
  reduction 0x62 f s true (fun s t seed act =>
    act.foldl (fun acc i => sumElem f s t acc (getV s f.a t.width i) i) seed)

/-- One level of the fixed tree (R119): pairs of nodes, absent ones never rounding. -/
def treeLevel (f : Form) (s : State) (t : ElemTy) (lev : Nat) : Nat → List (Option Nat) → List (Option Nat)
  | j, x :: y :: rest =>
    (match x, y with
      | none, y => y
      | x, none => x
      | some a, some b => some (sumElem f s t a b (j * 2 ^ lev + 2 ^ (lev - 1)))) :: treeLevel f s t lev (j + 1) rest
  | _, xs => xs

/-- The levels that are left, from `lev` on. -/
def treeSum (f : Form) (s : State) (t : ElemTy) : Nat → Nat → List (Option Nat) → Option Nat
  | 0, _, xs => (xs.head?).getD none
  | n + 1, lev, xs => treeSum f s t n (lev + 1) (treeLevel f s t lev 0 xs)

/-- The exponent of the smallest power of two at or above `max vl 1`. -/
def treeDepth (vl : Nat) : Nat := if vl ≤ 1 then 0 else (vl - 1).log2 + 1

/-- VREDTSUM: the sum over a fixed tree of positions (R119). -/
def execVredtsum (f : Form) (s : State) : Host.Outcome State Fault Refusal :=
  reduction 0x63 f s true (fun s t seed act =>
    let d := treeDepth s.t.arch.vl
    let leaves := (List.range (2 ^ d)).map (fun i => if act.contains i then some (getV s f.a t.width i) else none)
    match treeSum f s t d 1 leaves with
    | none => seed
    | some x => sumElem f s t seed x (2 ^ d))

/-- The largest or smallest of the seed and the active elements (R118); the seed unchanged when none is active. -/
def foldMinMax (big : Bool) (f : Form) (s : State) (t : ElemTy) (seed : Nat) (act : List Nat) : Nat :=
  act.foldl (fun acc i => minMaxCode big (vtrFlush s) t acc (getV s f.a t.width i)) seed

/-- VREDMAX (R118). -/
def execVredmax (f : Form) (s : State) : Host.Outcome State Fault Refusal :=
  reduction 0x64 f s false (fun s t seed act => foldMinMax true f s t seed act)
/-- VREDMIN (R118). -/
def execVredmin (f : Form) (s : State) : Host.Outcome State Fault Refusal :=
  reduction 0x65 f s false (fun s t seed act => foldMinMax false f s t seed act)

/-- The running sums of a scan, with the element each belongs to (R120). -/
def scanSums (f : Form) (s : State) (t : ElemTy) : Nat → List Nat → List (Nat × Nat)
  | _, [] => []
  | acc, i :: is =>
    let v := sumElem f s t acc (getV s f.a t.width i) i
    (i, v) :: scanSums f s t v is

/-- VSCAN (R120). -/
def execVscan (f : Form) (s : State) : Host.Outcome State Fault Refusal :=
  runForm 0x66 f s (fun s =>
    let t := elemType f s
    let w := t.width
    if !fmtFits f s then config s
    else if !([f.d, f.a, f.b].all (fun r => spanOk s r w)) then illegal s
    else
      let s1 := setV s f.d w (scanSums f s t (getV s f.b w 0) (activeList s f))
      .done (nextPc (if t.isFloat then countRsr (modeCode f s) s1 else s1)))

/-- The accumulator type of VDOT (R121). -/
def dotType (t : ElemTy) : ElemTy :=
  match t with
  | .f64 => .f64
  | .f32 | .bf16 | .f16 | .e4m3 | .e5m2 | .e2m3 | .e3m2 | .e2m1 => .f32
  | .i4 | .i8 | .i16 | .i32 | .i64 => .i64
  | .un4 | .un8 | .un16 | .un32 | .un64 => .un64

/-- VDOT: the exact dot product, rounded once into an accumulator (R121). -/
def execVdot (f : Form) (s : State) : Host.Outcome State Fault Refusal :=
  runForm 0x7D f s (fun s =>
    let t := elemType f s
    let w := t.width
    let at_ := dotType t
    if !fmtFits f s then config s
    else if !(spanOk s f.d at_.width && spanOk s f.a w && spanOk s f.b w) then illegal s
    else
      let act := activeList s f
      let code := modeCode f s
      let s1 :=
        if act.isEmpty then s
        else
          let acc := getV s f.d at_.width 0
          let fl := vtrFlush s
          let v :=
            if t.isFloat then
              let m := rndOf s code 0 0
              let sum := blockSum (act.map (fun i =>
                (readFlushed fl t (getV s f.a w i)).mul (readFlushed fl t (getV s f.b w i))))
              roundTo fl at_ ((readFlushed fl at_ acc).add sum m) m
            else
              let sum := act.foldl (fun (x : Int) i => x + t.intOf (getV s f.a w i) * t.intOf (getV s f.b w i)) 0
              wrapTo at_.width (at_.intOf acc + sum)
          setV s f.d at_.width [(0, v)]
      .done (nextPc (if t.isFloat then countRsr code s1 else s1)))

/-! ### Transcendentals (R122, R74 to R77) -/

/-- The types that the transcendentals accept. -/
def transTypes (t : ElemTy) : Bool := t.flushes

/-- The narrowing g of a fast result, for FP64, FP32 and the 16-bit types (R76). -/
def gOf (t : ElemTy) (g64 g32 g16 : Nat) : Nat :=
  match t with
  | .f64 => g64
  | .f32 => g32
  | _ => g16

/-- An exact form: Round(f(x), type, RNE) (R75). -/
def transExact (opc : Nat) (f : Form) (s : State) (fn : Exact → Exact) : Host.Outcome State Fault Refusal :=
  elemWise opc f s [f.d, f.a] transTypes noRound (fun s t i =>
    let fl := vtrFlush s
    roundTo fl t (fn (readFlushed fl t (getV s f.a t.width i))) .rne)

/-- A fast form: Round(f(x), F_g, RNE) (R76). It counts for no rounding ordinal, whatever vtr.RM is (log entry 41). -/
def transFast (opc : Nat) (f : Form) (s : State) (fn : Exact → Exact) (g : ElemTy → Exact → Nat) :
    Host.Outcome State Fault Refusal :=
  elemWise opc f s [f.d, f.a] transTypes noRound (fun s t i =>
    let fl := vtrFlush s
    let x := readFlushed fl t (getV s f.a t.width i)
    roundFastTo fl t (g t x) (fn x))

/-- VEXPF (R122). -/
def execVexpf (f : Form) (s : State) : Host.Outcome State Fault Refusal :=
  transFast 0x67 f s Exact.exp (fun t _ => gOf t 3 2 1)
/-- VEXPX (R122). -/
def execVexpx (f : Form) (s : State) : Host.Outcome State Fault Refusal := transExact 0x68 f s Exact.exp
/-- VLOGF (R122). -/
def execVlogf (f : Form) (s : State) : Host.Outcome State Fault Refusal :=
  transFast 0x69 f s Exact.log (fun t _ => gOf t 3 2 1)
/-- VLOGX (R122). -/
def execVlogx (f : Form) (s : State) : Host.Outcome State Fault Refusal := transExact 0x6A f s Exact.log
/-- VRCPF (R122). -/
def execVrcpf (f : Form) (s : State) : Host.Outcome State Fault Refusal :=
  transFast 0x6B f s Exact.rcp (fun t _ => gOf t 2 1 1)
/-- VRCPX (R122). -/
def execVrcpx (f : Form) (s : State) : Host.Outcome State Fault Refusal := transExact 0x6C f s Exact.rcp
/-- VRSQF (R122). -/
def execVrsqf (f : Form) (s : State) : Host.Outcome State Fault Refusal :=
  transFast 0x6D f s Exact.rsq (fun t _ => gOf t 2 1 1)
/-- VRSQX (R122). -/
def execVrsqx (f : Form) (s : State) : Host.Outcome State Fault Refusal := transExact 0x6E f s Exact.rsq

/-- The g of a fast sine: 0 for the 16-bit types above 8,192 (R76). -/
def sinG (t : ElemTy) (x : Exact) : Nat :=
  let beyond := match x.abs.cmp (.ofInt 8192) with
    | some c => decide (c > 0)
    | none => false
  gOf t 3 2 (if beyond then 0 else 1)

/-- VSINF (R122). -/
def execVsinf (f : Form) (s : State) : Host.Outcome State Fault Refusal := transFast 0x6F f s Exact.sin sinG
/-- VSINX (R122). -/
def execVsinx (f : Form) (s : State) : Host.Outcome State Fault Refusal := transExact 0x70 f s Exact.sin
/-- VTANHF (R122). -/
def execVtanhf (f : Form) (s : State) : Host.Outcome State Fault Refusal :=
  transFast 0x71 f s Exact.tanh (fun t _ => gOf t 3 2 1)
/-- VTANHX (R122). -/
def execVtanhx (f : Form) (s : State) : Host.Outcome State Fault Refusal := transExact 0x72 f s Exact.tanh

/-! ### Predicates (R123) -/

/-- The elements that a predicate instruction writes: those below vl, of the group in a VP block (R126). -/
def predElems (s : State) : List Nat :=
  let bits := groupBits s
  (List.range s.t.arch.vl).filter (fun i => bitsAt bits i 1 == 1)

/-- A predicate operation bit by bit. -/
def predOp (opc : Nat) (f : Form) (s : State) (op : Bool → Bool → Bool) : Host.Outcome State Fault Refusal :=
  runForm opc f s (fun s =>
    let a := predBits s f.a.toNat
    let b := predBits s f.b.toNat
    .done (nextPc (writePred s f.d.toNat (predElems s) (fun i => op (bitsAt a i 1 == 1) (bitsAt b i 1 == 1)))))

/-- PAND (R123). -/
def execPand (f : Form) (s : State) : Host.Outcome State Fault Refusal := predOp 0x73 f s (fun a b => a && b)
/-- POR (R123). -/
def execPor (f : Form) (s : State) : Host.Outcome State Fault Refusal := predOp 0x74 f s (fun a b => a || b)
/-- PXOR (R123). -/
def execPxor (f : Form) (s : State) : Host.Outcome State Fault Refusal := predOp 0x75 f s (fun a b => a != b)
/-- PANDN (R123). -/
def execPandn (f : Form) (s : State) : Host.Outcome State Fault Refusal := predOp 0x76 f s (fun a b => a && !b)
/-- PPOPC (R123). -/
def execPpopc (f : Form) (s : State) : Host.Outcome State Fault Refusal :=
  runForm 0x77 f s (fun s =>
    writeX f (BitVec.ofNat 64 (popCount s.t.arch.vl (predBits s f.a.toNat))) s)

/-- The least element below vl whose predicate bit is 1. -/
def firstTrue (s : State) (n : Nat) : Option Nat :=
  let b := predBits s n
  (List.range s.t.arch.vl).find? (fun i => bitsAt b i 1 == 1)

/-- PFIRST (R123). -/
def execPfirst (f : Form) (s : State) : Host.Outcome State Fault Refusal :=
  runForm 0x78 f s (fun s =>
    writeX f (match firstTrue s f.a.toNat with
      | some i => BitVec.ofNat 64 i
      | none => BitVec.allOnes 64) s)
/-- PBRK (R123). -/
def execPbrk (f : Form) (s : State) : Host.Outcome State Fault Refusal :=
  runForm 0x79 f s (fun s =>
    let first := (firstTrue s f.a.toNat).getD s.t.arch.vl
    let b := predBits s f.b.toNat
    .done (nextPc (writePred s f.d.toNat (List.range s.t.arch.vl)
      (fun i => bitsAt b i 1 == 1 && decide (i < first)))))
/-- PFROMX (R123). -/
def execPfromx (f : Form) (s : State) : Host.Outcome State Fault Refusal :=
  runForm 0x7A f s (fun s =>
    let k := (getX s f.b).toNat
    let x := (getX s f.a).toNat
    let idx := (List.range s.t.arch.vl).filter (fun i => decide (64 * k ≤ i) && decide (i < 64 * k + 64))
    .done (nextPc (writePred s f.d.toNat idx (fun i => bitsAt x (i - 64 * k) 1 == 1))))

/-! ### Divergence (R124, R125, R128) -/

/-- VPFETCH (R124). A nested one is not in the block's subset (R126). The effective type, FMT before vtr, has to be an
integer type (log entry 42). -/
def execVpfetch (f : Form) (s : State) : Host.Outcome State Fault Refusal :=
  runForm 0x7B f s (fun s =>
    let t := elemType f s
    let w := t.width
    if !fmtFits f s then config s
    else if !spanOk s f.a w then illegal s
    else if t.isFloat then config s
    else
      let target (i : Nat) : W64 := getX s f.b + BitVec.ofInt 64 (signedOf w (getV s f.a w i))
      let act := activeList s f
      match act.find? (fun i => (target i).toNat % 4 != 0) with
      | some i => .faultR (.of 0x06 (target i) i) s
      | none =>
        let vpc := (List.range s.t.arch.vl).map (fun i => if act.contains i then target i else 0)
        let run := act.foldl (fun acc i => acc + 2 ^ i) 0
        let join := s.t.arch.pc + 4
        let v : Vp := { vpc, run, joinPc := join, group := 0, count := 0 }
        .done (withArch s (chooseGroup s.t.arch v none)))

/-- VPJOIN (R128): illegal outside divergence. -/
def execVpjoin (f : Form) (s : State) : Host.Outcome State Fault Refusal :=
  runForm 0x7C f s (fun s =>
    match s.t.arch.vp with
    | none => illegal s
    | some v =>
      let run := (List.range v.vpc.length).foldl
        (fun acc i => if bitsAt v.run i 1 = 1 ∧ bitsAt v.group i 1 = 0 then acc + 2 ^ i else acc) 0
      .done (withArch s (chooseGroup s.t.arch { v with run := run } (some (lowestVp v)))))

end Sys2Proof.Machine
end

