-- ==== Sys2Proof/Machine/Access.lean ====
section
/-! DEFINITION. The access instructions of threads: `ld` and `st`, vector loads and stores with their stored encodings,
the memory-format control register, and streams (R206 to R227, R251 to R253). -/

namespace Sys2Proof.Machine

open Sys2Proof

/-- The address space of the current thread's own accesses: the U bit is required in U mode (R307, R313). -/
def threadSpace (s : State) : Space := mySpace s (s.t.mode == .user)

/-- A memory fault, kind R, against an element (R326). -/
def memFaultR (e : MemFault) (elem : Nat) (s : State) : Res := .faultR (.of e.code (BitVec.ofNat 64 e.addr) elem) s

/-- A memory fault of a closing instruction, kind C. -/
def memFaultC (e : MemFault) (s : State) : Res := .faultC (.of e.code (BitVec.ofNat 64 e.addr) 0) s

/-! ### ld and st (R217) -/

/-- The element type that FMT names, for `ld`, `st` and the AMOs. -/
def fmtElem (f : Form) : Option ElemTy := ElemTy.ofCode f.fmt.toNat

/-- The access width in bytes: 8 without a type. -/
def scalarBytes (f : Form) : Nat :=
  match fmtElem f with
  | some t => t.width / 8
  | none => 8

/-- The offset of address mode 00: SExt(B, 7), or SExt(B:C, 14) with IMM = 1 (R213). -/
def modeOffset (f : Form) : Int := if f.imm then imm14 f else f.b.toInt

/-- The address of `ld` and `st`: base plus a scaled offset, or plus X[c] held in the B field (R217, R21). -/
def scalarAddr (f : Form) (s : State) : W64 :=
  if f.mod.toNat % 4 = 0 then getX s f.a + BitVec.ofInt 64 (modeOffset f * scalarBytes f)
  else getX s f.a + getX s f.b

/-- The register value of a loaded scalar (R217). -/
def extendLoaded (f : Form) (v : Nat) : W64 :=
  match fmtElem f with
  | some .i8 => BitVec.ofInt 64 (signedOf 8 v)
  | some .i16 => BitVec.ofInt 64 (signedOf 16 v)
  | some .i32 => BitVec.ofInt 64 (signedOf 32 v)
  | _ => BitVec.ofNat 64 v

/-- LD (R217, R219). -/
def execLd (f : Form) (s : State) : Host.Outcome State Fault Refusal :=
  runForm 0xC0 f s (fun s => afterEpoch s (fun s =>
    let n := scalarBytes f
    let addr := scalarAddr f s
    if addr.toNat % n ≠ 0 then faultR 0x06 addr s
    else
      match translateElem s (threadSpace s) .load addr.toNat n with
      | .error e => memFaultR e 0 s
      | .ok (locs, s1) =>
        match dataError s1 addr.toNat locs with
        | some e => memFaultR e 0 s
        | none =>
          let s2 := loadLines locs s1
          writeX f (extendLoaded f (viewValue s2 locs)) s2))

/-- ST (R217). -/
def execSt (f : Form) (s : State) : Host.Outcome State Fault Refusal :=
  runForm 0xC1 f s (fun s =>
    let n := scalarBytes f
    let addr := scalarAddr f s
    if addr.toNat % n ≠ 0 then faultR 0x06 addr s
    else
      match translateElem s (threadSpace s) .store addr.toNat n with
      | .error e => memFaultR e 0 s
      | .ok (locs, s1) =>
        let st := makeStore f.cls.toNat [storeBytes (locs.headD 0) n (getX s f.d).toNat]
        .done (nextPc (addStore s1 (st.pinned (threadSpace s) [addr.toNat] s1))))

/-! ### Stored encodings (R211, R212) -/

/-- Bits of a stored element of an encoding, for a register type. -/
def storedBits (enc : Nat) (t : ElemTy) : Nat :=
  match enc with
  | 1 => 4 | 2 => 8 | 3 => 4 | 4 => 6 | 5 => 6 | 6 => 8 | 7 => 8 | 8 => 8 | 9 => 8 | 10 => 16 | 11 => 16
  | _ => t.width

/-- The element format of an MX encoding (R212). -/
def mxFormat (enc : Nat) : FloatFmt :=
  match enc with
  | 3 => .e2m1 | 4 => .e2m3 | 5 => .e3m2 | 6 => .e4m3 | _ => .e5m2

/-- The stored type of a plain converting encoding (R212). -/
def plainType (enc : Nat) : ElemTy :=
  match enc with
  | 8 => .e4m3 | 9 => .e5m2 | 10 => .bf16 | _ => .f16

/-- The offset unit of address mode 00 in bytes (R212). -/
def offsetUnit (enc : Nat) (t : ElemTy) : Nat :=
  match enc with
  | 0 => if t.width < 8 then 1 else t.width / 8
  | 10 => 2 | 11 => 2 | 12 => 16
  | _ => 1

/-- The integer types of the bit-sliced layout (R53). -/
def slicedType (t : ElemTy) : Bool :=
  match t with
  | .i4 | .un4 | .i8 | .un8 | .i16 | .un16 => true
  | _ => false

/-- The register types that an encoding accepts (R212). -/
def encAccepts (enc : Nat) (t : ElemTy) : Bool :=
  if enc = 0 ∨ enc = 12 then true
  else if enc ≤ 7 then t.flushes
  else if enc ≤ 11 then t.flushes || t == .e4m3 || t == .e5m2
  else slicedType t

/-- The block length that an encoding accepts (R50). -/
def blockAccepts (enc B : Nat) : Bool :=
  if enc = 1 ∨ enc = 2 then B != 16 else if 3 ≤ enc ∧ enc ≤ 7 then B == 32 else true

/-- The zero point of a block record (R49). -/
def recZero (enc rec_ : Nat) : Int := ((bitsAt rec_ 16 (if enc = 1 then 4 else 8) : Nat) : Int)

/-- The FP16 scale of a block record (R49). -/
def recScale (rec_ : Nat) : Exact := FloatFmt.fp16.decode (bitsAt rec_ 0 16)

/-- The exact value of a stored element before its rounding (R51, R52, R212). -/
def storedValue (enc : Nat) (t : ElemTy) (rec_ code : Nat) : Exact :=
  if enc = 1 ∨ enc = 2 then (recScale rec_).mul (.ofInt ((code : Int) - recZero enc rec_))
  else if 3 ≤ enc ∧ enc ≤ 7 then
    match e8m0Exp (bitsAt rec_ 0 8) with
    | none => .nan
    | some e => ((mxFormat enc).decode code).scale e
  else if 8 ≤ enc ∧ enc ≤ 11 then (plainType enc).exact code
  else t.exact code

/-- Bits move unchanged under an encoding (R68, R212). -/
def movesBits (enc : Nat) (t : ElemTy) : Bool := enc == 0 || (decide (8 ≤ enc) && decide (enc ≤ 11) && plainType enc == t)

/-- LoadConv: a stored element as a register value; never flushed (R212). -/
def loadConv (enc : Nat) (t : ElemTy) (rec_ code : Nat) (m : Rnd) : Nat :=
  if movesBits enc t then code else roundTo 0 t (storedValue enc t rec_ code) m

/-- The stored code of a grouped integer (R51). -/
def storeGrouped (enc rec_ : Nat) (x : Exact) (m : Rnd) : Nat :=
  let w := if enc = 1 then 4 else 8
  let hi : Int := ((2 ^ w : Nat) : Int) - 1
  let z := recZero enc rec_
  let s := recScale rec_
  if s.isZero || s.isInf || s.isNan || x.isNan then (clampTo 0 hi z).toNat
  else if x.isInf then (if x.sign then 0 else hi.toNat)
  else (clampTo 0 hi (((x.div s).roundInt m).getD 0 + z)).toNat

/-- StoreConv: a register value as a stored element (R51, R52, R212). -/
def storeConv (enc : Nat) (t : ElemTy) (rec_ code : Nat) (m : Rnd) : Nat :=
  if movesBits enc t then code
  else if enc = 1 ∨ enc = 2 then storeGrouped enc rec_ (t.exact code) m
  else if 3 ≤ enc ∧ enc ≤ 7 then
    match e8m0Exp (bitsAt rec_ 0 8) with
    | none => (mxFormat enc).nanCode
    | some e => (mxFormat enc).round ((t.exact code).scale (-e)) m
  else roundTo 0 (plainType enc) (t.exact code) m

/-- An access rounds for the RSR count: its stored type differs from the register type (R65). -/
def accessRounds (enc : Nat) (t : ElemTy) : Bool :=
  (decide (1 ≤ enc) && decide (enc ≤ 7)) || (decide (8 ≤ enc) && decide (enc ≤ 11) && plainType enc != t)

/-! ### Elements and their translation (R210, R213) -/

/-- Where an element lies: its index, the address of its first byte, the bit offset in it, its bits. -/
structure ElemAt where
  idx : Nat
  va : Nat
  bit : Nat
  bits : Nat
  deriving DecidableEq, Repr

/-- Bytes that an element touches. -/
def ElemAt.bytes (e : ElemAt) : Nat := (e.bit + e.bits + 7) / 8

/-- An address modulo 2^64 (R206). -/
def wrapAddr (x : Int) : Nat := wrapTo 64 x

/-- The faults among the bytes of one element: a Page fault goes before an Access violation (R210). -/
def elemFault (s : State) (sp : Space) (acc : Access) (va n : Nat) : Option MemFault :=
  let errs := (List.range n).filterMap (fun i =>
    match translate s sp acc ((va + i) % 2 ^ 64) with
    | .error e => some e
    | .ok _ => none)
  match errs.find? (fun e => e.code == 0x07) with
  | some e => some e
  | none => errs.head?

/-- A translated element with the locations of its bytes. -/
structure ElemLoc where
  at_ : ElemAt
  locs : List Nat
  deriving DecidableEq, Repr

/-- Translate elements in ascending order. The answer holds those before the first that faults, and that fault. -/
def translateElems (sp : Space) (acc : Access) : List ElemAt → State → List ElemLoc × Option (MemFault × Nat) × State
  | [], s => ([], none, s)
  | e :: es, s =>
    match translateRun sp acc e.bytes e.va s with
    | .ok (locs, s1) =>
      let r := translateElems sp acc es s1
      ({ at_ := e, locs := locs } :: r.1, r.2.1, r.2.2)
    | .error f => ([], some ((elemFault s sp acc e.va e.bytes).getD f, e.idx), s)

/-- The first data error among elements, ascending (R219 step 8). -/
def elemsDataError (s : State) : List ElemLoc → Option (MemFault × Nat)
  | [] => none
  | e :: es =>
    match dataError s e.at_.va e.locs with
    | some f => some (f, e.at_.idx)
    | none => elemsDataError s es

/-- Read elements in ascending order, each translated and then checked for a data error, so that the fault of a lower
element goes first (R146). -/
def reachElems (sp : Space) : List ElemAt → State → Except (MemFault × Nat) (List ElemLoc × State)
  | [], s => .ok ([], s)
  | e :: es, s =>
    match translateElems sp .load [e] s with
    | (_, some f, _) => .error f
    | (locs, none, s1) =>
      match elemsDataError s1 locs with
      | some f => .error f
      | none =>
        match reachElems sp es s1 with
        | .error f => .error f
        | .ok (rest, s2) => .ok (locs ++ rest, s2)

/-- The stored code of an element as a load of the current thread sees it. -/
def loadElem (s : State) (e : ElemLoc) : Nat := bitsAt (viewValue s e.locs) e.at_.bit e.at_.bits

/-- The bytes that an element's store writes, each with its mask (R218). -/
def elemStore (e : ElemLoc) (v : Nat) : List StoreByte :=
  let val := v % 2 ^ e.at_.bits * 2 ^ e.at_.bit
  let mask := (2 ^ e.at_.bits - 1) * 2 ^ e.at_.bit
  (e.locs.zip (List.range e.locs.length)).map (fun p =>
    { loc := p.1, val := BitVec.ofNat 8 (val / 256 ^ p.2), mask := BitVec.ofNat 8 (mask / 256 ^ p.2) })

/-! ### Vector access: operands and checks (R212 to R219) -/

/-- The C field: no register with IMM = 1 (R26); such an access under encodings 1 to 7 takes its block records from v0
(log entry 38). -/
def scaleReg (f : Form) : Field := if f.imm then 0 else f.c

/-- The stored encoding of a vector access outside mode 11 (R212). -/
def accessEnc (opc : Nat) (f : Form) (s : State) : Nat :=
  if opc = 0xC5 then 13 else if f.fmt ≠ 0 then f.fmt.toNat - 1 else bitsAt s.t.arch.mfr.toNat 0 5

/-- The block-scale operand is legal (R214). With vl = 0 its span is taken as one register (log entry 38). -/
def scaleRegOk (s : State) (enc : Nat) (f : Form) : Bool :=
  let c := (scaleReg f).toNat
  if 1 ≤ enc ∧ enc ≤ 7 then
    let span := max 1 (ceilDiv (ceilDiv s.t.arch.vl (vtrBlock s) * 32) (regbits s))
    c % span == 0 && decide (c + span ≤ s.t.arch.vnreg)
  else c == 0

/-- The record of a block from the block-scale operand (R49). -/
def blockRecord (s : State) (f : Form) (block : Nat) : Nat := getV s (scaleReg f) 32 block

/-- Step 1 of R219. -/
def accessIllegal (opc : Nat) (enc : Nat) (f : Form) (s : State) : Bool :=
  let t := vtrType s
  !spanOk s f.d t.width
  || (f.mod.toNat % 4 == 2 && !spanOk s f.b t.width)
  || (opc != 0xC5 && !scaleRegOk s enc f)

/-- Step 2 of R219, outside mode 11. -/
def accessConfig (opc : Nat) (enc : Nat) (f : Form) (s : State) : Bool :=
  let t := vtrType s
  let B := vtrBlock s
  let mode := f.mod.toNat % 4
  let store := opc == 0xC3
  !encAccepts enc t || !blockAccepts enc B
  || (mode != 0 && !((enc == 0 && decide (8 ≤ t.width)) || (decide (8 ≤ enc) && decide (enc ≤ 11))))
  || (store && decide (12 ≤ enc) && (f.pred != 0 || s.t.arch.vp.isSome))
  || (store && enc == 13 && s.t.arch.vl % B != 0)
  || (opc == 0xC4 && decide (12 ≤ enc))
  || (opc == 0xC5 && ((f.fmt != 0 && f.fmt.toNat != 14) || decide (t.width < (scaleReg f).toNat)))

/-- The address of element `i` (R213). -/
def elemAddr (enc : Nat) (f : Form) (s : State) (i : Nat) : ElemAt :=
  let t := vtrType s
  let eb := storedBits enc t
  let base : Int := ((getX s f.a).toNat : Int)
  match f.mod.toNat % 4 with
  | 0 =>
    let va := wrapAddr (base + modeOffset f * offsetUnit enc t + ((eb * i / 8 : Nat) : Int))
    { idx := i, va, bit := eb * i % 8, bits := eb }
  | 1 => { idx := i, va := wrapAddr (base + (i : Int) * (getX s f.b).toInt), bit := 0, bits := eb }
  | _ =>
    let v := signedOf t.width (getV s f.b t.width i)
    { idx := i, va := wrapAddr (base + v * ((eb / 8 : Nat) : Int)), bit := 0, bits := eb }

/-- An element of whole bytes lies on a multiple of its size (R213). -/
def ElemAt.aligned (e : ElemAt) : Bool := e.bits % 8 != 0 || e.va % (e.bits / 8) == 0

/-- The first misaligned element. -/
def misaligned (es : List ElemAt) : Option ElemAt := es.find? (fun e => !e.aligned)

/-- Misaligned access of a stride (R213): telem 0, tval the address that element 1 would have. -/
def strideFault (enc : Nat) (f : Form) (s : State) : Option W64 :=
  if f.mod.toNat % 4 = 1 ∧ (getX s f.b).toInt % ((storedBits enc (vtrType s) / 8 : Nat) : Int) ≠ 0 then
    some (getX s f.a + getX s f.b)
  else none

/-- Step 4 of R219: the stride goes before the elements (log entry 39). -/
def alignFault (enc : Nat) (f : Form) (s : State) (es : List ElemAt) : Option Cause :=
  match strideFault enc f s with
  | some v => some (.of 0x06 v 0)
  | none =>
    match misaligned es with
    | some e => some (.of 0x06 (BitVec.ofNat 64 e.va) e.idx)
    | none => none

/-- The vector registers after the loads of R218's loop, one element after the other: each is converted with the record of
its block as the elements before it have left the block-scale operand (R18, R49). -/
def loadedV (f : Form) (enc : Nat) (es : List ElemLoc) (s : State) : List Nat :=
  let t := vtrType s
  es.foldl (fun v e =>
    let i := e.at_.idx
    let record := blockRecord (withArch s { s.t.arch with v }) f (i / vtrBlock s)
    putElem (regbits s) v f.d.toNat t.width i (loadConv enc t record (loadElem s e) (rndOf s (vtrRm s) i 0))) s.t.arch.v

/-- Write loaded elements and count an RSR rounding (R212). -/
def writeLoaded (f : Form) (enc : Nat) (es : List ElemLoc) (s : State) : State :=
  let s1 := withArch s { s.t.arch with v := loadedV f enc es s }
  if accessRounds enc (vtrType s) then countRsr (vtrRm s) s1 else s1

/-- Load listed elements: data errors, then the values. -/
def loadElems (f : Form) (enc : Nat) (es : List ElemLoc) (s : State) (k : State → Res) : Res :=
  match elemsDataError s es with
  | some (e, i) => memFaultR e i s
  | none =>
    let s1 := loadLines (es.flatMap (fun e => e.locs)) s
    k (writeLoaded f enc es s1)

/-- A load of plain elements (encodings 0 to 11). -/
def loadPlain (enc : Nat) (f : Form) (s : State) : Res :=
  let es := (activeList s f).map (elemAddr enc f s)
  match alignFault enc f s es with
  | some c => .faultR c s
  | none =>
    match translateElems (threadSpace s) .load es s with
    | (_, some (e, i), _) => memFaultR e i s
    | (locs, none, s1) => loadElems f enc locs s1 (fun s2 => .done (nextPc s2))

/-- The store of listed elements, as a buffered store. -/
def storeOf (enc : Nat) (f : Form) (s : State) (es : List ElemLoc) : Store :=
  let t := vtrType s
  let B := vtrBlock s
  let code := vtrRm s
  makeStore f.cls.toNat (es.map (fun e =>
    elemStore e (storeConv enc t (blockRecord s f (e.at_.idx / B)) (getV s f.d t.width e.at_.idx)
      (rndOf s code e.at_.idx 0))))

/-- Lines that elements with these addresses touch, by virtual address. -/
def elemLines (es : List ElemAt) : List Nat :=
  (es.flatMap (fun e => (List.range e.bytes).map (fun i => (e.va + i) % 2 ^ 64 / 64))).eraseDups

/-- The addresses of the first and the last byte of each element. -/
def elemEnds (es : List ElemAt) : List Nat := es.flatMap (fun e => [e.va, (e.va + e.bytes - 1) % 2 ^ 64])

/-- A store of more than 1,024 lines that a fault stops (R239): it has committed before itself, the elements below the
faulting one perform, or wait for the epoch's end with their translations pinned (R81, R210), and the strip that rolls back
holds no store. -/
def brokenStore (st : Store) (c : Cause) (s : State) : Res :=
  let s1 := drain (commit s)
  .faultR c (openStrip (if st.elems.isEmpty then s1 else performPending s1 (.store st)) 1)

/-- What a memory fault against an element reports. -/
def MemFault.cause (e : MemFault) (elem : Nat) : Cause := .of e.code (BitVec.ofNat 64 e.addr) elem

/-- What a misaligned element reports. -/
def ElemAt.cause (e : ElemAt) : Cause := .of 0x06 (BitVec.ofNat 64 e.va) e.idx

/-- Store listed elements: `whole` is a fault that stops all of them, `ok` says which are aligned, `mk` is the store of
translated elements, and `k` goes on with the store. Steps 4 and 5 of R219 are taken over all elements, but over each
element in turn by a store of more than 1,024 lines, which performs them directly (R239; log entry 39). -/
def storeElems (whole : Option Cause) (ok : ElemAt → Bool) (es : List ElemAt) (mk : List ElemLoc → Store) (s : State)
    (k : Store → State → Res) : Res :=
  let sp := threadSpace s
  let bad := es.find? (fun e => !ok e)
  let pinned (locs : List ElemLoc) (s1 : State) : Store := (mk locs).pinned sp (elemEnds (locs.map (fun l => l.at_))) s1
  if 1024 < (elemLines es).length then
    match whole with
    | some c => brokenStore (mk []) c s
    | none =>
      match translateElems sp .store (es.takeWhile ok) s with
      | (locs, some (e, i), s1) => brokenStore (pinned locs s1) (e.cause i) s1
      | (locs, none, s1) =>
        match bad with
        | some e => brokenStore (pinned locs s1) e.cause s1
        | none => k ((mk locs).pinned sp (elemEnds es) s1) s1
  else
    match whole, bad with
    | some c, _ => .faultR c s
    | none, some e => .faultR e.cause s
    | none, none =>
      match translateElems sp .store es s with
      | (_, some (e, i), _) => memFaultR e i s
      | (locs, none, s1) => k ((mk locs).pinned sp (elemEnds es) s1) s1

/-- A store of plain elements. -/
def storePlain (enc : Nat) (f : Form) (s : State) : Res :=
  let t := vtrType s
  let es := (activeList s f).map (elemAddr enc f s)
  storeElems ((strideFault enc f s).map (fun v => .of 0x06 v 0)) ElemAt.aligned es (storeOf enc f s) s (fun st s1 =>
    let s2 := addStore s1 st
    .done (afterStore st (nextPc (if accessRounds enc t then countRsr (vtrRm s) s2 else s2))))

/-! ### Bitmask-sparse records (R55 to R57, R215, R252, R253) -/

/-- The base of a packed record or of blocks: mode 00 (R213). -/
def packedBase (enc : Nat) (f : Form) (s : State) : Nat :=
  wrapAddr (((getX s f.a).toNat : Int) + modeOffset f * offsetUnit enc (vtrType s))

/-- Bytes of a record with the given counts (R55). -/
def sparseLength (count nnz w : Nat) : Nat := 16 + ceilDiv count 8 + ceilDiv (nnz * w) 8

/-- The record of `vl` values of a type (R55, R56). -/
def sparseRecord (t : ElemTy) (vals : List Nat) : List Byte :=
  let stored := vals.filter (fun v => v != 0)
  let count := vals.length
  let len := sparseLength count stored.length t.width
  let mask := pack 1 (vals.map (fun v => if v = 0 then 0 else 1))
  leBytes 4 len ++ leBytes 4 count ++ leBytes 4 stored.length ++ leBytes 1 t.code ++ leBytes 1 1 ++ leBytes 2 0
    ++ leBytes (ceilDiv count 8) mask ++ leBytes (ceilDiv (stored.length * t.width) 8) (pack t.width stored)

/-- An address on each page of a range of bytes, and on no other. -/
def spanPages (addr n : Nat) : List Nat :=
  ((List.range (n / 65536 + 1)).map (fun i => addr + 65536 * i) ++ [addr + n - 1]).filter (fun a =>
    decide (addr ≤ a) && decide (a < addr + n))

/-- A store under encoding 12: its whole reserved space is translated and pinned, then LENGTH is compared
(R215, R252). The record is no element: its first byte that faults is reported, with telem 0 (log entry 39). -/
def storeSparse (f : Form) (s : State) : Res :=
  let t := vtrType s
  let addr := packedBase 12 f s
  let rsv := 16 * bitsAt s.t.arch.mfr.toNat 16 16
  let bytes := sparseRecord t ((List.range s.t.arch.vl).map (getV s f.d t.width))
  if addr % 16 ≠ 0 then faultR 0x06 (BitVec.ofNat 64 addr) s
  else
    match translateRun (threadSpace s) .store rsv addr s with
    | .error e => memFaultR e 0 s
    | .ok (locs, s1) =>
      if bytes.length > rsv then faultR 0x0E (BitVec.ofNat 64 bytes.length) s
      else
        let ws := (locs.zip bytes).map (fun p => ({ loc := p.1, val := p.2, mask := 0xFF } : StoreByte))
        let st := (makeStore f.cls.toNat [ws]).pinned (threadSpace s) (spanPages addr rsv) s1
        .done (nextPc (addStore s1 st))

/-- The header checks of R57 that the header alone decides (R253 part 1). -/
def sparseHeaderOk (t : ElemTy) (vl : Nat) (h : List Byte) : Bool :=
  fieldAt h 13 1 == 1 && fieldAt h 12 1 == t.code && fieldAt h 4 4 == vl && fieldAt h 14 2 == 0
  && fieldAt h 0 4 == sparseLength (fieldAt h 4 4) (fieldAt h 8 4) t.width

/-- The elements of a record's body: each index of `vl` with its stored value or zero. -/
def sparseValues (w mask stream : Nat) : Nat → Nat → Nat → List Nat
  | 0, _, _ => []
  | n + 1, i, k =>
    if bitsAt mask i 1 = 1 then bitsAt stream (w * k) w :: sparseValues w mask stream n (i + 1) (k + 1)
    else 0 :: sparseValues w mask stream n (i + 1) k

/-- The stored elements of a record that a load reads: the places of the values of the active elements in the stream that
follows the mask. -/
def sparseElems (w mask : Nat) (locs : List Nat) (va : Nat) (active : List Nat) : List ElemLoc :=
  (active.filter (fun i => bitsAt mask i 1 == 1)).map (fun i =>
    let bit := w * popCount i mask
    let e : ElemAt := { idx := i, va := va + bit / 8, bit := bit % 8, bits := w }
    { at_ := e, locs := (locs.drop (bit / 8)).take e.bytes })

/-- A load under encoding 12 (R57): the header's checks, the translation of the body up to its first byte that faults, the
mask's checks (R253), and then the errors of the lines that it reads, header and mask first and then the values of active
elements (R219 step 8). It reads no line that holds only values of inactive elements (log entry 39). -/
def loadSparse (f : Form) (s : State) : Res :=
  let t := vtrType s
  let w := t.width
  let vl := s.t.arch.vl
  let addr := packedBase 12 f s
  let sp := threadSpace s
  let bad := faultR 0x14 (BitVec.ofNat 64 addr) s
  if addr % 16 ≠ 0 then faultR 0x06 (BitVec.ofNat 64 addr) s
  else
    match translateRun sp .load 16 addr s with
    | .error e => memFaultR e 0 s
    | .ok (hl, s1) =>
      let h := hl.map (viewByte s1)
      if !sparseHeaderOk t vl h then bad
      else
        let n := fieldAt h 0 4 - 16
        match translateRun sp .load n (addr + 16) s1 with
        | .error e => memFaultR e 0 s
        | .ok (bl, s2) =>
          let mb := ceilDiv vl 8
          let mask := viewValue s2 (bl.take mb)
          if popCount vl mask ≠ fieldAt h 8 4 ∨ mask ≥ 2 ^ vl then bad
          else
            let es := sparseElems w mask (bl.drop mb) (addr + 16 + mb) (activeList s f)
            match dataError s2 addr (hl ++ bl.take mb), elemsDataError s2 es with
            | some e, _ => memFaultR e 0 s
            | none, some (e, i) => memFaultR e i s
            | none, none =>
              let s3 := loadLines (hl ++ bl.take mb ++ es.flatMap (fun e => e.locs)) s2
              let vals := sparseValues w mask (viewValue s3 (bl.drop mb)) vl 0 0
              let xs := (activeList s f).map (fun i => (i, vals.getD i 0))
              .done (nextPc (setV s3 f.d w xs))

/-! ### Bit-sliced blocks (R53, R54, R216, R222) -/

/-- The blocks of `B` elements that hold an active element, each with its lowest one (R216). -/
def activeBlocks (s : State) (f : Form) (B : Nat) : List (Nat × Nat) :=
  let act := activeList s f
  (List.range (ceilDiv s.t.arch.vl B)).filterMap (fun b =>
    match act.find? (fun i => i / B == b) with
    | some i => some (b, i)
    | none => none)

/-- Element `r` of a block from its first `k` planes, most significant first; planes not read are zero (R54). -/
def slicedElem (w B k planes r : Nat) : Nat :=
  (List.range k).foldl (fun acc p => acc + bitsAt planes (B * p + r) 1 * 2 ^ (w - 1 - p)) 0

/-- A load under encoding 13 of the first `k` planes. -/
def loadSliced (k : Nat) (f : Form) (s : State) : Res :=
  let t := vtrType s
  let w := t.width
  let B := vtrBlock s
  let base := packedBase 13 f s
  let es := (activeBlocks s f B).map (fun b =>
    ({ idx := b.2, va := wrapAddr ((base + b.1 * (w * B / 8) : Nat) : Int), bit := 0, bits := k * B } : ElemAt))
  match translateElems (threadSpace s) .load es s with
  | (_, some (e, i), _) => memFaultR e i s
  | (locs, none, s1) =>
    match elemsDataError s1 locs with
    | some (e, i) => memFaultR e i s
    | none =>
      let s2 := loadLines (locs.flatMap (fun e => e.locs)) s1
      let planes := locs.map (fun e => (e.at_.idx / B, viewValue s2 e.locs))
      let xs := (activeList s f).map (fun i => (i, slicedElem w B k (assocGet 0 planes (i / B)) (i % B)))
      .done (nextPc (setV s2 f.d w xs))

/-- The planes of one block as bits, most significant plane first (R53). -/
def slicedBlock (w B : Nat) (vals : List Nat) : Nat :=
  (List.range w).foldl (fun acc p => acc + pack 1 (vals.map (fun v => bitsAt v (w - 1 - p) 1)) * 2 ^ (B * p)) 0

/-- A store under encoding 13: whole blocks (R56, R216). -/
def storeSliced (f : Form) (s : State) : Res :=
  let t := vtrType s
  let w := t.width
  let B := vtrBlock s
  let base := packedBase 13 f s
  let es := (List.range (s.t.arch.vl / B)).map (fun b =>
    ({ idx := b * B, va := wrapAddr ((base + b * (w * B / 8) : Nat) : Int), bit := 0, bits := w * B } : ElemAt))
  match translateElems (threadSpace s) .store es s with
  | (_, some (e, i), _) => memFaultR e i s
  | (locs, none, s1) =>
    let elems := locs.map (fun e =>
      elemStore e (slicedBlock w B ((List.range B).map (fun r => getV s f.d w (e.at_.idx + r)))))
    .done (nextPc (addStore s1 ((makeStore f.cls.toNat elems).pinned (threadSpace s) (elemEnds es) s1)))

/-! ### Streams (R224 to R227) -/

/-- The stream register that a field names. -/
def getStream (s : State) (r : Field) : Stream := if h : r.toNat < 8 then s.t.arch.sm[r.toNat] else .unbound

/-- Replace a stream register. -/
def setStream (s : State) (r : Field) (m : Stream) : State :=
  if h : r.toNat < 8 then withArch s { s.t.arch with sm := s.t.arch.sm.set r.toNat m h } else s

/-- The element type of a stream; none when it is unbound (R224). -/
def streamType (m : Stream) : Option ElemTy := ElemTy.ofCode (bitsAt m.word.toNat 27 5)

/-- The types that SW.FMT names (R224, R225). -/
def streamFmtOk (code : Nat) : Bool := [1, 2, 3, 4, 5, 6, 11, 12, 13, 14, 16, 17, 18, 19].contains code

/-- The place of stream element CONS + i. -/
def streamElem (m : Stream) (t : ElemTy) (i : Nat) : ElemAt :=
  let stride := signedOf 32 (bitsAt m.word.toNat 32 32)
  { idx := i, va := wrapAddr ((m.base.toNat : Int) + ((m.cons + i : Nat) : Int) * stride), bit := 0, bits := t.width }

/-- Consume vl elements (R226). -/
def consumeStream (s : State) (r : Field) : State :=
  let m := getStream s r
  let n := m.cons + s.t.arch.vl
  setStream s r { m with cons := n, ahead := m.ahead.filter (fun e => decide (n ≤ e.1)) }

/-- The code of a stream element: the one read ahead, else what the load sees now (R227). -/
def streamCode (s : State) (m : Stream) (e : ElemLoc) : Nat :=
  match m.ahead.find? (fun a => a.1 == m.cons + e.at_.idx) with
  | some a => a.2.1
  | none => loadElem s e

/-- An access to a stream of a type rounds for the RSR count (R65). -/
def streamRounds (st t : ElemTy) : Bool := st != t && (st.isFloat || t.isFloat)

/-- The codes of listed elements of a stream, read in ascending order: what one read returns, no later read of the thread
goes behind (R235). -/
def streamCodes (r : Field) : List ElemLoc → State → List (Nat × Nat) × State
  | [], s => ([], s)
  | e :: es, s =>
    let c := streamCode s (getStream s r) e
    let seen := (e.locs.zip (List.range e.locs.length)).map (fun b => (b.1, BitVec.ofNat 8 (c / 256 ^ b.2)))
    let s1 := if hasAhead s.t.arch then withArch s (dropSeen s.t.arch seen) else s
    let rest := streamCodes r es s1
    ((e.at_.idx, c) :: rest.1, rest.2)

/-- A mode-11 load of listed elements of a stream of a type. -/
def streamLoad (f : Form) (st : ElemTy) (es : List ElemAt) (count1 : State → State) (s : State) : Res :=
  let t := vtrType s
  match misaligned es with
  | some e => .faultR e.cause s
  | none =>
    match translateElems (threadSpace s) .load es s with
    | (_, some (e, i), _) => memFaultR e i s
    | (locs, none, s1) =>
      match elemsDataError s1 locs with
      | some (e, i) => memFaultR e i s
      | none =>
        let r := streamCodes f.b locs (fillLines (locs.flatMap (fun e => e.locs)) s1)
        let xs := r.1.map (fun x =>
          (x.1, if st = t then x.2 else convertElem 0 st t x.2 (rndOf s (vtrRm s) x.1 0)))
        .done (nextPc (count1 (consumeStream (setV r.2 f.d t.width xs) f.b)))

/-- A vector load or store in mode 11 (R226). Stream conversions never flush (R66). An access of a bound stream that
rounds counts whatever vl is (R65, R212). -/
def streamAccess (store : Bool) (f : Form) (s : State) : Res :=
  let t := vtrType s
  let r := f.b
  let m := getStream s r
  let vl := s.t.arch.vl
  let code := vtrRm s
  let count1 (st : ElemTy) (s : State) : State := if streamRounds st t then countRsr code s else s
  if !spanOk s f.d t.width || scaleReg f != 0 then illegal s
  else if f.fmt ≠ 0 then config s
  else
    match streamType m with
    | none => if vl = 0 then .done (nextPc s) else .faultR (.of 0x19 0 0) s
    | some st =>
      let count := bitsAt m.word.toNat 0 27
      if vl = 0 then .done (nextPc (count1 st s))
      else if m.cons + vl > count then .faultR (.of 0x19 (BitVec.ofNat 64 m.cons) (count - m.cons)) s
      else
        let es := (activeList s f).map (streamElem m st)
        if store then
          let stored (locs : List ElemLoc) : Store :=
            makeStore f.cls.toNat (locs.map (fun e =>
              let c := getV s f.d t.width e.at_.idx
              elemStore e (if st = t then c else convertElem 0 t st c (rndOf s code e.at_.idx 0))))
          storeElems none ElemAt.aligned es stored s (fun x s1 =>
            .done (afterStore x (nextPc (count1 st (consumeStream (addStore s1 x) r)))))
        else streamLoad f st es (count1 st) s

/-! ### vld, vst, vldff, vldp (R218 to R222) -/

/-- A vector load or store in modes 00 to 10, after its first two steps of checks. With vl = 0 nothing is accessed
(R251), and an RSR rounding still counts (R65). -/
def vectorAccess (opc enc : Nat) (f : Form) (s : State) (body : State → Res) : Res :=
  if accessIllegal opc enc f s then illegal s
  else if accessConfig opc enc f s then config s
  else if s.t.arch.vl = 0 then
    let s1 := if accessRounds enc (vtrType s) then countRsr (vtrRm s) s else s
    let s2 := if opc = 0xC4 then withArch s1 { s1.t.arch with ffvl := 0 } else s1
    .done (nextPc s2)
  else body s

/-- VLD (R218). -/
def execVld (f : Form) (s : State) : Host.Outcome State Fault Refusal :=
  runForm 0xC2 f s (fun s => afterEpoch s (fun s =>
    if f.mod.toNat % 4 = 3 then streamAccess false f s
    else
      let enc := accessEnc 0xC2 f s
      vectorAccess 0xC2 enc f s (fun s =>
        if enc = 12 then loadSparse f s
        else if enc = 13 then loadSliced (vtrType s).width f s
        else loadPlain enc f s)))

/-- VST (R218). -/
def execVst (f : Form) (s : State) : Host.Outcome State Fault Refusal :=
  runForm 0xC3 f s (fun s =>
    if f.mod.toNat % 4 = 3 then streamAccess true f s
    else
      let enc := accessEnc 0xC3 f s
      vectorAccess 0xC3 enc f s (fun s =>
        if enc = 12 then storeSparse f s
        else if enc = 13 then storeSliced f s
        else storePlain enc f s))

/-- The bound below which VLDFF loads when element `i` faults: whole blocks under encodings 1 to 7 (R220). -/
def ffBound (enc i B : Nat) : Nat := if 1 ≤ enc ∧ enc ≤ 7 then i - i % B else i

/-- VLDFF: fault-first load (R220, R221). -/
def execVldff (f : Form) (s : State) : Host.Outcome State Fault Refusal :=
  runForm 0xC4 f s (fun s => afterEpoch s (fun s =>
    let enc := accessEnc 0xC4 f s
    vectorAccess 0xC4 enc f s (fun s =>
      let es := (activeList s f).map (elemAddr enc f s)
      let setFf (k : Nat) (s : State) : State := withArch s { s.t.arch with ffvl := k }
      match alignFault enc f s es with
      | some c => .faultR c s
      | none =>
        if es.isEmpty then
          .done (nextPc (setFf 0 (if accessRounds enc (vtrType s) then countRsr (vtrRm s) s else s)))
        else
          match translateElems (threadSpace s) .load es s with
          | (locs, none, s1) => loadElems f enc locs s1 (fun s2 => .done (nextPc (setFf s.t.arch.vl s2)))
          | (locs, some (e, i), s1) =>
            let k := ffBound enc i (vtrBlock s)
            let keep := locs.filter (fun l => decide (l.at_.idx < k))
            if (e.code ≠ 0x07 ∧ e.code ≠ 0x08) ∨ keep.isEmpty then memFaultR e i s
            else loadElems f enc keep s1 (fun s2 => .done (nextPc (setFf k s2))))))

/-- VLDP: bit-plane load with early stop (R222). DESIGN CHOICE (log entry 38): with IMM = 1, where the immediate takes the field
of k (R26), k is 0, which is every plane. -/
def execVldp (f : Form) (s : State) : Host.Outcome State Fault Refusal :=
  runForm 0xC5 f s (fun s => afterEpoch s (fun s =>
    vectorAccess 0xC5 13 f s (fun s =>
      let k := (scaleReg f).toNat
      loadSliced (if k = 0 then (vtrType s).width else k) f s)))

/-! ### mfrset, sbind, sfree (R211, R223, R225) -/

/-- A value that mfr may hold (R211). -/
def mfrOk (v : W64) : Bool :=
  bitsAt v.toNat 32 32 == 0 && bitsAt v.toNat 5 11 == 0 && decide (bitsAt v.toNat 0 5 ≤ 13)

/-- MFRSET (R223). -/
def execMfrset (f : Form) (s : State) : Host.Outcome State Fault Refusal :=
  runForm 0xC6 f s (fun s =>
    let t := getX s f.a
    if !mfrOk t then config s
    else
      let old := s.t.arch.mfr
      let s1 := withArch s { s.t.arch with mfr := t }
      writeX f old s1)

/-- SBIND (R225). A misaligned stride reports the address of element 1, as R213 has it of an access (log entry 43). -/
def execSbind (f : Form) (s : State) : Host.Outcome State Fault Refusal :=
  runForm 0xC7 f s (fun s =>
    let base := getX s f.a
    let w := getX s f.b
    let code := bitsAt w.toNat 27 5
    if !streamFmtOk code then config s
    else
      let e := (match ElemTy.ofCode code with | some t => t.width / 8 | none => 1)
      let stride := signedOf 32 (bitsAt w.toNat 32 32)
      if base.toNat % e ≠ 0 then faultR 0x06 base s
      else if stride % (e : Int) ≠ 0 then faultR 0x06 (base + BitVec.ofInt 64 stride) s
      else .done (nextPc (setStream s f.d { base := base, word := w, cons := 0, ahead := [] })))

/-- SFREE (R225). -/
def execSfree (f : Form) (s : State) : Host.Outcome State Fault Refusal :=
  runForm 0xC8 f s (fun s => .done (nextPc (setStream s f.d .unbound)))

end Sys2Proof.Machine
end

