-- ==== Sys2Proof/WellFormed.lean ====
section
/-! DEFINITION. When an instruction is well formed: its long form is one that the opcode admits (R24), and it carries
the constructor that its opcode and its IMM name. -/

namespace Sys2Proof

/-- R24 for an instruction with a long form; a dictionary word names any entry and any holes (R21), `udf` any other
bits (R108), and an event is well formed as it stands. -/
def WellFormed (i : Instr) : Bool :=
  match Machine.longOf i with
  | some (opc, f) =>
    match i with
    | .udf _ => true
    | _ => Machine.validForm opc f && decide (Machine.instrOf opc f = some i)
  | none => true

end Sys2Proof
end

