-- ==== Sys2Proof/Decode.lean ====
section
/-! DEFINITION. Decoding and encoding: native words (R21, R29, R40), long forms (R23) and the fate of every other
encoding (R43). The decoder answers none where the word is not an instruction; the machine then raises Illegal
instruction. -/

namespace Sys2Proof

open Sys2Proof.Machine (opRow? validForm holesOk instrOf longOf imm14 imm21)

/-- Bits hi down to lo of a word, lo first, n of them. -/
def wordField (w : W32) (lo n : Nat) : BitVec n := w.extractLsb' lo n

/-- A long form before its checks: opcode and operand fields. -/
abbrev Long := Nat × Form

/-- The twins of N-I op4 (R40). -/
def nITwin (op4 : Nat) : Option Nat :=
  [0x01, 0x03, 0x04, 0x05, 0x06, 0x07, 0x08, 0x10, 0x11, 0x09, 0x40][op4]?

/-- The opcodes of N-M op4 (R40). -/
def nMOpcode (op4 : Nat) : Option Nat :=
  [0xC0, 0xC1, 0xC2, 0xC3, 0xC4, 0xC5, 0xCA, 0xCB][op4]?

/-- FMT of the type field of a scalar floating-point word: 00 f32, 01 f64, 10 bf16, 11 f16 (R21, R29). -/
def typeFmt (t : BitVec 2) : BitVec 5 :=
  if t = 0 then 2 else if t = 1 then 1 else if t = 2 then 3 else 4

/-- An opcode whose native word carries a type (R22). -/
def isTyped (opc : Nat) : Bool := 0x1B ≤ opc && opc ≤ 0x26

/-- N-R scalar (R29, R43): op6 up to 0x26; the type field is 00 on every opcode that carries no type. -/
def longNRScalar (w : W32) : Option Long :=
  let opc := (wordField w 23 6).toNat
  let ty := wordField w 0 2
  if opc > 0x26 then none
  else if !isTyped opc && ty != 0 then none
  else some (opc,
    { d := wordField w 16 7, a := wordField w 9 7, b := wordField w 2 7,
      fmt := if isTyped opc then typeFmt ty else 0 })

/-- N-I (R29): imm11 sign-extended to 14 bits in B:C. -/
def longNI (w : W32) : Option Long :=
  (nITwin (wordField w 25 4).toNat).map fun opc =>
    (opc, { d := wordField w 18 7, a := wordField w 11 7,
            b := (wordField w 7 4).signExtend 7, c := wordField w 0 7, imm := true })

/-- N-R vector (R29). -/
def longNRVector (w : W32) : Option Long :=
  let op6 := (wordField w 23 6).toNat
  if op6 > 0x3D then none
  else some (0x40 + op6,
    { d := wordField w 16 7, a := wordField w 9 7, b := wordField w 2 7, pred := (wordField w 0 2).setWidth 7 })

/-- N-R function and tile (R29): bits [1:0] are the mask below op6 32 and the tile modifier from it. -/
def longNRFunction (w : W32) : Option Long :=
  let op6 := (wordField w 23 6).toNat
  let f : Form := { d := wordField w 16 7, a := wordField w 9 7, b := wordField w 2 7 }
  if op6 ≤ 0x12 then some (0x80 + op6, { f with pred := (wordField w 0 2).setWidth 7 })
  else if 0x20 ≤ op6 && op6 ≤ 0x30 then some (0x80 + op6, { f with mod := (wordField w 0 2).setWidth 5 })
  else none

/-- N-M (R29): the c field goes to B, the mode to MOD. -/
def longNM (w : W32) : Option Long :=
  (nMOpcode (wordField w 25 4).toNat).map fun opc =>
    (opc, { d := wordField w 18 7, a := wordField w 11 7, b := wordField w 4 7,
            mod := (wordField w 2 2).setWidth 5, pred := (wordField w 0 2).setWidth 7 })

/-- N-B (R29): beq to bgeu, jal and bp. -/
def longNB (w : W32) : Option Long :=
  let cond := (wordField w 26 3).toNat
  if cond ≤ 5 then
    some (0x2B + cond,
      { d := wordField w 19 7, a := wordField w 12 7,
        b := (wordField w 7 5).signExtend 7, c := wordField w 0 7, imm := true })
  else if cond == 6 then
    some (0x29,
      { d := wordField w 19 7, a := (wordField w 14 5).signExtend 7, b := wordField w 7 7, c := wordField w 0 7,
        imm := true })
  else
    some (0x31,
      { d := wordField w 19 7, a := (wordField w 14 3).signExtend 7, b := wordField w 7 7, c := wordField w 0 7,
        mod := (wordField w 17 2).setWidth 5, imm := true })

/-- N-S op6 values that reach no opcode, and those that N-M reaches (R40, R43). -/
def nSReserved (op6 : Nat) : Bool :=
  op6 ≤ 0x05 || op6 == 0x0A || op6 == 0x0B || (0x1B ≤ op6 && op6 ≤ 0x1F) || (0x2A ≤ op6 && op6 ≤ 0x2F) || 0x3C ≤ op6

/-- An N-S op6 of control register access (R29). -/
def isSysOp6 (op6 : Nat) : Bool := 0x33 ≤ op6 && op6 ≤ 0x36

/-- N-U and N-S (R29). -/
def longNU (w : W32) : Option Long :=
  let op2 := (wordField w 27 2).toNat
  if op2 ≤ 1 then
    some (0x27 + op2,
      { d := wordField w 20 7, a := (wordField w 14 6).signExtend 7, b := wordField w 7 7, c := wordField w 0 7,
        imm := true })
  else if op2 == 2 then
    some (0x2A,
      { d := wordField w 20 7, a := wordField w 13 7,
        b := (wordField w 7 6).signExtend 7, c := wordField w 0 7, imm := true })
  else
    let op6 := (wordField w 21 6).toNat
    if nSReserved op6 then none
    else if isSysOp6 op6 then
      some (0xC0 + op6, { d := wordField w 14 7, b := wordField w 7 7, c := wordField w 0 7, imm := true })
    else some (0xC0 + op6, { d := wordField w 14 7, a := wordField w 7 7, b := wordField w 0 7 })

/-- The long form that a native word stands for (R29), by major format; none for a reserved word (R43) and for a
dictionary word. -/
def nativeLong (w : W32) : Option Long :=
  match (wordField w 29 3).toNat with
  | 0 => longNRScalar w
  | 1 => longNI w
  | 2 => longNRVector w
  | 3 => longNRFunction w
  | 4 => longNM w
  | 5 => longNB w
  | 6 => longNU w
  | _ => none

/-- The instruction of a checked long form. -/
def instrOfLong (l : Long) : Option Instr :=
  if validForm l.1 l.2 then instrOf l.1 l.2 else none

/-- The decoder of instruction words (R20, R21, R43). A word of major 111 is a dictionary word; a word of major 000
with op6 0 is `udf`. None is a word that is no instruction. -/
def decodeWord (w : W32) : Option Instr :=
  if wordField w 29 3 = 7 then
    some (.dictionaryWord (wordField w 21 8) (wordField w 14 7) (wordField w 7 7) (wordField w 0 7))
  else if wordField w 23 9 = 0 then some (.udf (wordField w 0 23))
  else (nativeLong w).bind instrOfLong

/-- A little-endian word of four bytes (R20). -/
def wordOfBytes (b : List Byte) : Option W32 :=
  match b with
  | b0 :: b1 :: b2 :: b3 :: _ => some (b3 ++ b2 ++ b1 ++ b0)
  | _ => none

/-- The four bytes of a word as memory holds them (R20). -/
def bytesOfWord (w : W32) : List Byte :=
  [wordField w 0 8, wordField w 8 8, wordField w 16 8, wordField w 24 8]

/-- Decoding of the bytes at an address: total, none where they hold no instruction. -/
def decodeBytes (b : List Byte) : Option Instr := (wordOfBytes b).bind decodeWord

/-- The instruction read from an instruction whose bits, numbered as the opcode table numbers them, are `w`. Every
instruction is one word, so bits above the word are none. -/
def decodeTableWord (_nbits w : Nat) : Option Instr := decodeBytes (bytesOfWord (BitVec.ofNat 32 w))

/-! ## Long forms -/

/-- The 64 bits of a long form (R23) with its KEEP bits. -/
def encodeLong (opc : Nat) (f : Form) (keep : BitVec 3) : W64 :=
  (BitVec.ofNat 8 opc ++ f.d ++ f.a ++ f.b ++ f.c ++ f.cls ++ f.pred ++ BitVec.ofBool f.pinv ++ f.fmt ++ f.mod ++
    BitVec.ofBool f.imm ++ keep ++ (0 : BitVec 2) : BitVec 64)

/-- The opcode of a long form. -/
def longOpc (v : W64) : Nat := (v.extractLsb' 56 8).toNat

/-- The operand fields of a long form (R23). -/
def longForm (v : W64) : Form :=
  { d := v.extractLsb' 49 7, a := v.extractLsb' 42 7, b := v.extractLsb' 35 7, c := v.extractLsb' 28 7,
    cls := v.extractLsb' 24 4, pred := v.extractLsb' 17 7, pinv := v.getLsbD 16,
    fmt := v.extractLsb' 11 5, mod := v.extractLsb' 6 5, imm := v.getLsbD 5 }

/-- KEEP of a long form (R23). -/
def longKeep (v : W64) : BitVec 3 := v.extractLsb' 2 3

/-- R24: the checks that `dload` applies to every entry. -/
def validLong (v : W64) : Bool :=
  v.extractLsb' 0 2 == 0 && validForm (longOpc v) (longForm v) && holesOk (longOpc v) (longForm v) (longKeep v)

/-- The instruction of an expanded long form (KEEP 000). -/
def decodeLong (v : W64) : Option Instr :=
  if v.extractLsb' 0 5 = 0 then instrOfLong (longOpc v, longForm v) else none

/-- The filled form of a template (R25): hole A to D, hole B to A, hole C to B, or to C when IMM is 1; a kept or
unused field stays. -/
def fillHoles (opc : Nat) (f : Form) (keep : BitVec 3) (ha hb hc : Field) : Form :=
  match opRow? opc with
  | none => f
  | some r =>
    let wide := f.imm && (r.imm == .wide || r.imm == .wide20)
    let usesA := if f.imm then wide || r.imm == .reg14 || r.imm == .need14 || r.imm == .mem else r.a != .unused
    let usesB := !f.imm && r.b != .unused
    let f := if keep.getLsbD 2 || r.d == .unused then f else { f with d := ha }
    let f := if keep.getLsbD 1 || !usesA then f else { f with a := hb }
    if keep.getLsbD 0 then f
    else if f.imm then { f with c := hc }
    else if usesB then { f with b := hc } else f

/-- The expanded long form of a dictionary word (R25): KEEP is 000. -/
def expandEntry (entry : W64) (ha hb hc : Field) : W64 :=
  encodeLong (longOpc entry) (fillHoles (longOpc entry) (longForm entry) (longKeep entry) ha hb hc) 0

/-! ## The encoder -/

/-- The fields that no native word carries hold their defaults (R15, R29). -/
def plainExtras (f : Form) : Bool := f.cls == 0 && !f.pinv

/-- The mask of a native word: p0 to p3, uninverted (R29). -/
def nativeMask (f : Form) : Bool := f.pred.toNat ≤ 3 && !f.pinv

/-- The type field of a scalar floating-point word (R29). -/
def fmtType (fmt : BitVec 5) : Option (BitVec 2) :=
  if fmt = 2 then some 0 else if fmt = 1 then some 1 else if fmt = 3 then some 2 else if fmt = 4 then some 3 else none

/-- N-R scalar words. -/
def encodeNRScalar (opc : Nat) (f : Form) : Option W32 :=
  if plainExtras f && f.c == 0 && f.pred == 0 && f.mod == 0 && !f.imm then
    (if isTyped opc then fmtType f.fmt else if f.fmt = 0 then some 0 else none).map fun ty =>
      (0 : BitVec 3) ++ BitVec.ofNat 6 opc ++ f.d ++ f.a ++ f.b ++ ty
  else none

/-- The op4 of a twin (R40). -/
def nIOp4 (opc : Nat) : Option Nat :=
  [(0x01, 0), (0x03, 1), (0x04, 2), (0x05, 3), (0x06, 4), (0x07, 5), (0x08, 6), (0x10, 7), (0x11, 8), (0x09, 9),
   (0x40, 10)].lookup opc

/-- N-I words: the immediate fits imm11. -/
def encodeNI (opc : Nat) (f : Form) : Option W32 :=
  if plainExtras f && f.pred == 0 && f.fmt == 0 && f.mod == 0 && f.imm && (f.b.extractLsb' 0 4).signExtend 7 == f.b then
    (nIOp4 opc).map fun op4 =>
      (1 : BitVec 3) ++ BitVec.ofNat 4 op4 ++ f.d ++ f.a ++ f.b.extractLsb' 0 4 ++ f.c
  else none

/-- N-R vector words. -/
def encodeNRVector (opc : Nat) (f : Form) : Option W32 :=
  if plainExtras f && nativeMask f && f.c == 0 && f.fmt == 0 && f.mod == 0 && !f.imm then
    some ((2 : BitVec 3) ++ BitVec.ofNat 6 (opc - 0x40) ++ f.d ++ f.a ++ f.b ++ f.pred.setWidth 2)
  else none

/-- N-R function and tile words. -/
def encodeNRFunction (opc : Nat) (f : Form) : Option W32 :=
  if plainExtras f && f.c == 0 && f.fmt == 0 && !f.imm then
    if opc < 0xA0 then
      if nativeMask f && f.mod == 0 then
        some ((3 : BitVec 3) ++ BitVec.ofNat 6 (opc - 0x80) ++ f.d ++ f.a ++ f.b ++ f.pred.setWidth 2)
      else none
    else if f.pred == 0 && f.mod.toNat ≤ 3 then
      some ((3 : BitVec 3) ++ BitVec.ofNat 6 (opc - 0x80) ++ f.d ++ f.a ++ f.b ++ f.mod.setWidth 2)
    else none
  else none

/-- The op4 of an N-M opcode (R40). -/
def nMOp4 (opc : Nat) : Option Nat :=
  [(0xC0, 0), (0xC1, 1), (0xC2, 2), (0xC3, 3), (0xC4, 4), (0xC5, 5), (0xCA, 6), (0xCB, 7)].lookup opc

/-- N-M words. -/
def encodeNM (op4 : Nat) (f : Form) : Option W32 :=
  if plainExtras f && nativeMask f && f.c == 0 && f.fmt == 0 && f.mod.toNat ≤ 3 && !f.imm then
    some ((4 : BitVec 3) ++ BitVec.ofNat 4 op4 ++ f.d ++ f.a ++ f.b ++ f.mod.setWidth 2 ++ f.pred.setWidth 2)
  else none

/-- N-B and N-U words of the jumps, branches and wide constants. -/
def encodeJump (opc : Nat) (f : Form) : Option W32 :=
  if !(plainExtras f && f.pred == 0 && f.fmt == 0 && f.imm) then none
  else if 0x2B ≤ opc && opc ≤ 0x30 then
    if f.mod == 0 && (f.b.extractLsb' 0 5).signExtend 7 == f.b then
      some ((5 : BitVec 3) ++ BitVec.ofNat 3 (opc - 0x2B) ++ f.d ++ f.a ++ f.b.extractLsb' 0 5 ++ f.c)
    else none
  else if opc == 0x29 then
    if f.mod == 0 && (f.a.extractLsb' 0 5).signExtend 7 == f.a then
      some ((5 : BitVec 3) ++ (6 : BitVec 3) ++ f.d ++ f.a.extractLsb' 0 5 ++ f.b ++ f.c)
    else none
  else if opc == 0x31 then
    if f.mod.toNat ≤ 3 && (f.a.extractLsb' 0 3).signExtend 7 == f.a then
      some ((5 : BitVec 3) ++ (7 : BitVec 3) ++ f.d ++ f.mod.setWidth 2 ++ f.a.extractLsb' 0 3 ++ f.b ++ f.c)
    else none
  else if opc == 0x2A then
    if f.mod == 0 && (f.b.extractLsb' 0 6).signExtend 7 == f.b then
      some ((6 : BitVec 3) ++ (2 : BitVec 2) ++ f.d ++ f.a ++ f.b.extractLsb' 0 6 ++ f.c)
    else none
  else if f.mod == 0 && (f.a.extractLsb' 0 6).signExtend 7 == f.a then
    some ((6 : BitVec 3) ++ BitVec.ofNat 2 (opc - 0x27) ++ f.d ++ f.a.extractLsb' 0 6 ++ f.b ++ f.c)
  else none

/-- N-S words. -/
def encodeNS (opc : Nat) (f : Form) : Option W32 :=
  if plainExtras f && f.pred == 0 && f.fmt == 0 && f.mod == 0 then
    if isSysOp6 (opc - 0xC0) then
      if f.imm && f.a == 0 then
        some ((6 : BitVec 3) ++ (3 : BitVec 2) ++ BitVec.ofNat 6 (opc - 0xC0) ++ f.d ++ f.b ++ f.c)
      else none
    else if !f.imm && f.c == 0 then
      some ((6 : BitVec 3) ++ (3 : BitVec 2) ++ BitVec.ofNat 6 (opc - 0xC0) ++ f.d ++ f.a ++ f.b)
    else none
  else none

/-- The native word of a long form, where it has one (R15, R29). -/
def encodeNative (opc : Nat) (f : Form) : Option W32 :=
  if f.imm && (nIOp4 opc).isSome then encodeNI opc f
  else if opc ≤ 0x26 then encodeNRScalar opc f
  else if opc ≤ 0x31 then encodeJump opc f
  else if opc < 0x80 then encodeNRVector opc f
  else if opc < 0xC0 then encodeNRFunction opc f
  else match nMOp4 opc with
    | some op4 => encodeNM op4 f
    | none => encodeNS opc f

/-- How an instruction is written: one native word, or the long form that a dictionary entry holds. -/
inductive Encoded where
  | word (w : W32)
  | long (v : W64)
  deriving DecidableEq, Repr

/-- The encoder (R15): the native word where the instruction fits one, otherwise its long form. An event has none. -/
def encode (i : Instr) : Option Encoded :=
  match i with
  | .dictionaryWord e a b c => some (.word ((7 : BitVec 3) ++ e ++ a ++ b ++ c))
  | .udf x => some (.word ((0 : BitVec 9) ++ x))
  | _ =>
    (longOf i).map fun l =>
      match encodeNative l.1 l.2 with
      | some w => .word w
      | none => .long (encodeLong l.1 l.2 0)

/-- Reading back what the encoder wrote. -/
def decode : Encoded → Option Instr
  | .word w => decodeWord w
  | .long v => decodeLong v

end Sys2Proof
end

