-- ==== Sys2Proof/Machine/Channel.lean ====
section
/-! DEFINITION. The channel instructions `chcfg`, `chsend` and `chrecv` (R182 to R187, R203, R205). -/

namespace Sys2Proof.Machine

open Sys2Proof

/-- CHSTATn (R182). -/
def Chan.word (c : Chan) : W64 :=
  BitVec.ofNat 64 (c.base + c.scount * 2 ^ 16 + c.ssize * 2 ^ 23 + c.cons * 2 ^ 32 + c.prod * 2 ^ 40 + c.full * 2 ^ 48)

/-- The bytes of a slot. -/
def Chan.slotBytes (c : Chan) : Nat := c.ssize * 256

/-- The location of a byte of the slot at a position. -/
def Chan.loc (c : Chan) (pos off : Nat) : Nat := cspBase + c.base * 256 + pos % c.scount * c.slotBytes + off

/-- Slot advances of a thread on a channel that have committed and not performed: sent, received. In a DET launch some
wait in the write-combining buffer (log entry 8). -/
def pendingSlots (t : Thread) (ch : Nat) : Nat × Nat :=
  let add (acc : Nat × Nat) (c a b : Nat) : Nat × Nat := if c = ch then (acc.1 + a, acc.2 + b) else acc
  let early := t.performing.foldl (fun acc p => match p with | .slots c a b => add acc c a b | _ => acc) (0, 0)
  t.wcb.foldl (fun acc x => match x.2 with | .slots c a b => add acc c a b | _ => acc) early

/-- The advances of the thread's local positions on a channel: those of its open strip and of its commits (R187). -/
def localSent (t : Thread) (ch : Nat) : Nat := t.strip.sent.toList.getD ch 0 + (pendingSlots t ch).1
def localRecvd (t : Thread) (ch : Nat) : Nat := t.strip.recvd.toList.getD ch 0 + (pendingSlots t ch).2

/-- The party is, or can become, a channel's producer or consumer (R183). -/
def roleFree (role party : Nat) : Bool := role == 0xFF || role == party

/-- Advance a local position in the open strip. -/
def advanceSent (s : State) (ch : Nat) : State :=
  if h : ch < 16 then
    { s with t := { s.t with strip := { s.t.strip with sent := s.t.strip.sent.set ch (s.t.strip.sent[ch] + 1) h } } }
  else s
def advanceRecvd (s : State) (ch : Nat) : State :=
  if h : ch < 16 then
    { s with t := { s.t with strip := { s.t.strip with recvd := s.t.strip.recvd.set ch (s.t.strip.recvd[ch] + 1) h } } }
  else s

/-- The byte offset of CHSEND and CHRECV: an unsigned field of 64-byte units, or X[c] held in the B field (R187). -/
def chanOffset (f : Form) (s : State) : Nat :=
  if f.mod.toNat % 4 = 0 then f.b.toNat * 64 else (getX s f.b).toNat

/-- The stored element `i` at an offset of a slot. -/
def chanElem (c : Chan) (pos off w i : Nat) : ElemLoc :=
  let e : ElemAt := { idx := i, va := 0, bit := w * i % 8, bits := w }
  { at_ := e, locs := (List.range e.bytes).map (fun k => c.loc pos (off + w * i / 8 + k)) }

/-- The checks that CHSEND and CHRECV share, and the claim of the role (R187, R183): the channel's number faults. -/
def chanChecked (f : Form) (s : State) (role : Chan → Nat) (claim : Chan → Chan) (body : Chan → State → Res) : Res :=
  let ch := f.a.toNat
  let c := getChan s ch
  let o := chanOffset f s
  let w := (vtrType s).width
  let n := ceilDiv (s.t.arch.vl * w) 8
  if !spanOk s f.d w then illegal s
  else if c.scount = 0 ∨ c.slotBytes < o + n ∨ o % 64 ≠ 0 ∨ !roleFree (role c) s.t.slot then
    faultR 0x0F (BitVec.ofNat 64 ch) s
  else body (claim c) (setChan s ch (claim c))

/-- CHSEND (R187). -/
def execChsend (f : Form) (s : State) : Host.Outcome State Fault Refusal :=
  runForm 0xCA f s (fun s =>
    chanChecked f s Chan.prod (fun c => { c with prod := s.t.slot }) (fun c s =>
      let ch := f.a.toNat
      let o := chanOffset f s
      let w := (vtrType s).width
      if c.scount ≤ c.full + localSent s.t ch then .waiting (.chanFree ch) (openStrip (commit s) 1)
      else
        let pos := c.ppos + localSent s.t ch
        let elems := (activeList s f).map (fun i => elemStore (chanElem c pos o w i) (getV s f.d w i))
        let s1 := addStore s (makeStore 16 elems)
        .done (nextPc (if o + ceilDiv (s.t.arch.vl * w) 8 = c.slotBytes then advanceSent s1 ch else s1))))

/-- CHRECV (R187): one that finds its slot published is an acquire (R242). -/
def execChrecv (f : Form) (s : State) : Host.Outcome State Fault Refusal :=
  runForm 0xCB f s (fun s =>
    chanChecked f s Chan.cons (fun c => { c with cons := s.t.slot }) (fun c s =>
      let ch := f.a.toNat
      let o := chanOffset f s
      let w := (vtrType s).width
      if c.full ≤ localRecvd s.t ch then .waiting (.chanFull ch) (openStrip (commit s) 1)
      else
        let pos := c.cpos + localRecvd s.t ch
        let s0 := acquire s 1
        let xs := (activeList s0 f).map (fun i => (i, loadElem s0 (chanElem c pos o w i)))
        let s1 := setV s0 f.d w xs
        .done (nextPc (if o + ceilDiv (s.t.arch.vl * w) 8 = c.slotBytes then advanceRecvd s1 ch else s1))))

/-- A byte list of slot stores lies in a channel's region. -/
def inRegion (c : Chan) (st : Store) : Bool :=
  let lo := cspBase + c.base * 256
  st.cls == 16 && st.elems.any (fun e => e.any (fun w => decide (lo ≤ w.loc) && decide (w.loc < lo + c.scount * c.slotBytes)))

/-- A thread waits on a channel, or holds slot advances or slot bytes of it that have not performed (R186). -/
def holdsChan (c : Chan) (ch : Nat) (t : Thread) : Bool :=
  t.wait == .chanFree ch || t.wait == .chanFull ch || localSent t ch != 0 || localRecvd t ch != 0
  || t.strip.items.any (fun i => match i with | .store st => inRegion c st | .fence _ => false)
  || t.performing.any (fun p => match p with | .store st => inRegion c st | _ => false)

/-- The channels that a descriptor names (R170). -/
def descChan (d : List Byte) : Option Nat :=
  if bitsAt (fieldAt d 26 1) 1 1 = 1 then some (fieldAt d 27 1) else none

/-- An incomplete tile operation names a channel. -/
def opNamesChan (ch : Nat) (o : TileOp) : Bool := descChan o.descA == some ch || descChan o.descB == some ch

/-- A channel is in use, so that CHCFG refuses it (R186). The executing thread's own strip has committed and performed,
so that it holds no more than advances that wait for the end of an epoch (log entry 8). -/
def chanBusy (s : State) (ch : Nat) : Bool :=
  s.u.ops.any (opNamesChan ch) || (unitThreads s).any (holdsChan (getChan s ch) ch)

/-- Elements read ahead that lie in a range are dropped. -/
def dropRange (lo hi : Nat) (a : Arch) : Arch :=
  { a with sm := a.sm.map (fun m =>
      { m with ahead := m.ahead.filter (fun e => decide (hi ≤ e.2.2) || decide (e.2.2 + streamBytes m ≤ lo)) }) }

/-- A store without its bytes in a range. -/
def Store.outside (lo hi : Nat) (st : Store) : Store :=
  { st with elems := st.elems.map (fun e => e.filter (fun w => decide (w.loc < lo) || decide (hi ≤ w.loc))) }

/-- What of a buffered item of a DET launch is left when its thread has written a range after it. -/
def DetItem.outside (lo hi : Nat) (x : DetItem) : Option DetItem :=
  match x with
  | .store st => some (.store (st.outside lo hi))
  | .amo _ loc _ _ _ _ _ => if lo ≤ loc ∧ loc < hi then none else some x
  | .cmd .. | .slots .. | .tile _ => some x

/-- A channel's region of `n` bytes at a CSP offset is zeroed when the instruction executes (R203): the thread's later
reads return the zeros, and none of its earlier stores performs over them (R235). -/
def zeroRegion (base n : Nat) (s : State) : State :=
  let lo := cspBase + base
  let s1 := withArch s (dropRange lo (lo + n) s.t.arch)
  { s1 with
    u := { s1.u with csp := Memory.zeroRange s1.u.csp base (base + n) }
    t := { s1.t with wcb := s1.t.wcb.filterMap (fun e => (e.2.outside lo (lo + n)).map (fun x => (e.1, x))) } }

/-- CHCFG (R186). -/
def execChcfg (f : Form) (s : State) : Host.Outcome State Fault Refusal :=
  runForm 0xCC f s (fun s =>
    let s1 := drain (commit s)
    let ch := f.d.toNat
    let a := (getX s f.a).toNat
    let b := (getX s f.b).toNat
    let scount := bitsAt b 0 7
    let ssize := bitsAt b 16 9
    if chanBusy s1 ch then faultC 0x0F (BitVec.ofNat 64 ch) s1
    else if bitsAt b 7 9 ≠ 0 ∨ bitsAt b 25 39 ≠ 0 then faultC 0x10 0 s1
    else if scount = 0 then .done (closeDone (setChan s1 ch .unconfigured))
    else if 64 < scount ∨ ssize = 0 ∨ 256 < ssize ∨ a % 256 ≠ 0 ∨ cspBytes s1 < a + scount * ssize * 256 then
      faultC 0x10 0 s1
    else
      let s2 := setChan s1 ch { Chan.unconfigured with base := a / 256, scount, ssize }
      .done (closeDone (zeroRegion a (scount * ssize * 256) s2)))

end Sys2Proof.Machine
end

