-- ==== Sys2Proof/Machine/TileMath.lean ====
section
/-! DEFINITION. The arithmetic of the matrix engine: exact block sums (R69 to R72), recompression (R179) and dense
compression (R180). FP64 values are codes; matrices of R179 are lists of columns. -/

namespace Sys2Proof.Machine

open Sys2Proof

/-- The value of an FP64 code. -/
def dec64 (c : Nat) : Exact := FloatFmt.fp64.decode c

/-- An exact value rounded once into FP64 by RNE, subnormals kept. -/
def rnd64 (x : Exact) : Nat := FloatFmt.fp64.round x .rne

/-- The exact sum of the products of two lists of values (R71). -/
def dotExact (xs ys : List Exact) : Exact := blockSum ((xs.zip ys).map (fun e => e.1.mul e.2))

/-- The exact sum of the products of two lists of FP64 codes. -/
def dot64 (xs ys : List Nat) : Exact := dotExact (xs.map dec64) (ys.map dec64)

/-- A code that is neither NaN nor infinite. -/
def finite64 (c : Nat) : Bool := !((dec64 c).isNan || (dec64 c).isInf)

/-- The group scale times a block's sum (R71). -/
def groupScaled (scale v : Exact) : Exact :=
  if scale.isNan || v.isNan then .nan
  else if v.isInf then (if scale.isZero then .nan else .inf (scale.sign != v.sign))
  else if scale.isInf then (if v.isZero then .nan else .inf (scale.sign != v.sign))
  else if v.isZero then v
  else if scale.isZero then .zero false
  else scale.mul v

/-- The columns of a matrix given by rows, and its rows given by columns. -/
def transposed {α : Type} (d : α) (n : Nat) (m : List (List α)) : List (List α) :=
  (List.range n).map (fun j => m.map (fun r => r.getD j d))

/-! ### Modified Gram-Schmidt (R179 step 1) -/

/-- Reduce a column by the columns before it: the coefficients R and what is left. -/
def reduceCol : List (List Nat) → List Nat → List Nat × List Nat
  | [], w => ([], w)
  | q :: qs, w =>
    let r := rnd64 (dot64 q w)
    let w1 := (w.zip q).map (fun e => rnd64 ((dec64 e.1).add ((dec64 r).mul (dec64 e.2)).neg .rne))
    let rest := reduceCol qs w1
    (r :: rest.1, rest.2)

/-- The orthonormal columns Q and the columns of R. -/
def gramSchmidt : List (List Nat) → List (List Nat) → List (List Nat) → List (List Nat) × List (List Nat)
  | [], q, r => (q, r)
  | x :: xs, q, r =>
    let red := reduceCol q x
    let d := rnd64 (dot64 red.2 red.2).sqrt
    let qc := if (dec64 d).isZero then red.2.map (fun _ => 0) else red.2.map (fun w => rnd64 ((dec64 w).div (dec64 d)))
    gramSchmidt xs (q ++ [qc]) (r ++ [red.1 ++ [d]])

/-! ### One-sided Jacobi (R179 step 3) -/

/-- The working state: the columns of W and of Z, and whether every rotation value was finite. -/
structure Jacobi where
  w : List (List Nat)
  z : List (List Nat)
  ok : Bool

/-- Rotate columns p and q. -/
def rotateCols (c sn : Nat) (p q : Nat) (m : List (List Nat)) : List (List Nat) :=
  let ps := m.getD p []
  let qs := m.getD q []
  let cv := dec64 c
  let sv := dec64 sn
  let np := (ps.zip qs).map (fun e => rnd64 ((cv.mul (dec64 e.1)).add (sv.mul (dec64 e.2)).neg .rne))
  let nq := (ps.zip qs).map (fun e => rnd64 ((sv.mul (dec64 e.1)).add (cv.mul (dec64 e.2)) .rne))
  setNth (setNth m p np) q nq

/-- The value of 1. -/
def one64 : Exact := .val false 1 0 false

/-- One pair of columns. -/
def jacobiPair (j : Jacobi) (pq : Nat × Nat) : Jacobi :=
  let wp := j.w.getD pq.1 []
  let wq := j.w.getD pq.2 []
  let al := rnd64 (dot64 wp wp)
  let be := rnd64 (dot64 wq wq)
  let ga := rnd64 (dot64 wp wq)
  if (dec64 ga).isZero then j
  else
    let num := (dec64 be).add (dec64 al).neg .rne
    let ze := rnd64 (num.div ((dec64 ga).scale 1))
    let zv := dec64 ze
    let root := rnd64 (dec64 (rnd64 (one64.add (zv.mul zv) .rne))).sqrt
    let den := rnd64 (zv.abs.add (dec64 root) .rne)
    let neg := zv.sign && !zv.isZero
    let t := rnd64 ((if neg then one64.neg else one64).div (dec64 den))
    let tv := dec64 t
    let root2 := rnd64 (dec64 (rnd64 (one64.add (tv.mul tv) .rne))).sqrt
    let c := rnd64 (one64.div (dec64 root2))
    let sn := rnd64 ((dec64 c).mul tv)
    { w := rotateCols c sn pq.1 pq.2 j.w, z := rotateCols c sn pq.1 pq.2 j.z,
      ok := j.ok && [ze, t, c, sn].all finite64 }

/-- The pairs of a sweep over `n` columns. -/
def jacobiPairs (n : Nat) : List (Nat × Nat) :=
  (List.range (n - 1)).flatMap (fun p => (List.range (n - 1 - p)).map (fun i => (p, p + 1 + i)))

/-- The sweeps of the iteration. -/
def jacobiSweeps (pairs : List (Nat × Nat)) : Nat → Jacobi → Jacobi
  | 0, j => j
  | n + 1, j => jacobiSweeps pairs n (pairs.foldl jacobiPair j)

/-! ### Order and truncation (R179 steps 4 and 5) -/

/-- Insert a column's index by its singular value, descending; an equal value goes after. -/
def insertSigma (x : Nat × Nat) : List (Nat × Nat) → List (Nat × Nat)
  | [] => [x]
  | y :: ys => if (dec64 y.1).cmp (dec64 x.1) = some (-1) then x :: y :: ys else y :: insertSigma x ys

/-- The columns by descending singular value, as (value, index). -/
def sortSigma (sig : List Nat) : List (Nat × Nat) :=
  (sig.zip (List.range sig.length)).foldl (fun acc x => insertSigma x acc) []

/-- The square of a code, exactly. -/
def square64 (c : Nat) : Exact := (dec64 c).mul (dec64 c)

/-- How many of the values, smallest first, may be dropped: their squares sum to at most `lim`. -/
def dropCount (lim : Exact) : List Nat → Exact → Nat
  | [], _ => 0
  | x :: xs, acc =>
    let acc1 := acc.add (square64 x) .rne
    match acc1.cmp lim with
    | some c => if c ≤ 0 then dropCount lim xs acc1 + 1 else 0
    | none => 0

/-- What recompression needs of the control registers (R204): sweeps, tolerance, whether it is absolute. -/
structure TruncMode where
  sweeps : Nat
  ttol : Nat
  tabs : Bool

/-- Steps 3 to 5 on the columns of W: the rotated W and Z, and the kept columns in order; none where a value is not
finite. `seen` are values of the earlier steps. -/
def jacobiKept (w : List (List Nat)) (seen : List Nat) (tm : TruncMode) :
    Option (List (List Nat) × List (List Nat) × List Nat) :=
  let n := w.length
  let frob := rnd64 (dot64 w.flatten w.flatten).sqrt
  let z0 := (List.range n).map (fun j => (List.range n).map (fun i => if i = j then rnd64 one64 else 0))
  let j := jacobiSweeps (jacobiPairs n) tm.sweeps { w, z := z0, ok := true }
  let sig := j.w.map (fun c => rnd64 (dot64 c c).sqrt)
  let tau := if tm.tabs then tm.ttol else rnd64 ((dec64 tm.ttol).mul (dec64 frob))
  let all := seen ++ w.flatten ++ j.w.flatten ++ j.z.flatten ++ sig ++ [frob, tau]
  if j.ok && all.all finite64 then
    let order := sortSigma sig
    let dropped := dropCount (square64 tau) (order.reverse.map (fun e => e.1)) (.zero false)
    some (j.w, j.z, (order.take (n - dropped)).map (fun e => e.2))
  else none

/-- A factor pair by rows: U, V and the rank. -/
structure Factors where
  u : List (List Nat)
  v : List (List Nat)
  rank : Nat

/-- The result whose every entry is the canonical NaN (R179). -/
def nanFactors (f : FloatFmt) (m n r : Nat) : Factors :=
  { u := List.replicate m (List.replicate r f.nanCode), v := List.replicate n (List.replicate r f.nanCode), rank := r }

/-- R179 on factors given by rows, as FP64 codes, of a factor format. -/
def recompress (f : FloatFmt) (u v : List (List Nat)) (r : Nat) (tm : TruncMode) : Factors :=
  let m := u.length
  let n := v.length
  if !((u.flatten ++ v.flatten).all finite64) then nanFactors f m n r
  else
    let qu := gramSchmidt (transposed 0 r u) [] []
    let qv := gramSchmidt (transposed 0 r v) [] []
    let row (cols : List (List Nat)) (i : Nat) : List Nat := cols.map (fun c => c.getD i 0)
    let w := (List.range r).map (fun j => (List.range r).map (fun i => rnd64 (dot64 (row qu.2 i) (row qv.2 j))))
    match jacobiKept w (qu.1.flatten ++ qu.2.flatten ++ qv.1.flatten ++ qv.2.flatten) tm with
    | none => nanFactors f m n r
    | some (wj, zj, kept) =>
      let out (q : List (List Nat)) (x : List (List Nat)) (rows : Nat) : List (List Nat) :=
        (List.range rows).map (fun i => kept.map (fun c => f.round (dot64 (row q i) (x.getD c [])) .rne))
      { u := out qu.1 wj m, v := out qv.1 zj n, rank := kept.length }

/-- R180 on a dense matrix given by rows of FP64 codes. -/
def compress (f : FloatFmt) (m n : Nat) (a : List (List Nat)) (tm : TruncMode) : Factors :=
  if !(a.flatten.all finite64) then nanFactors f m n (min m n)
  else
    match jacobiKept (transposed 0 n a) [] tm with
    | none => nanFactors f m n (min m n)
    | some (wj, zj, kept) =>
      let out (x : List (List Nat)) (rows : Nat) : List (List Nat) :=
        (List.range rows).map (fun i => kept.map (fun c => f.round (dec64 ((x.getD c []).getD i 0)) .rne))
      { u := out wj m, v := out zj n, rank := kept.length }

end Sys2Proof.Machine
end

