-- ==== Sys2Proof/Machine/TileRows.lean ====
section
/-! DEFINITION. Tile registers, operand descriptors, and what a tile operation does row by row (R166 to R180, R190 to
R199). A tile's contents stand row by row. -/

namespace Sys2Proof.Machine

open Sys2Proof

/-! ### Tile registers and the pool (R166 to R168) -/

/-- Bytes of a factor entry by FTYPE. -/
def factorBytes (ft : Nat) : Nat := if ft = 1 then 8 else if ft = 2 then 4 else 2

/-- The format of a factor type. -/
def factorFmt (ft : Nat) : FloatFmt := if ft = 1 then .fp64 else if ft = 2 then .fp32 else .bf16

/-- Granules of a tile (R167). -/
def TileHdr.gran (h : TileHdr) : Nat :=
  if h.kind = 1 then ceilDiv (h.m * h.n * 8) 2048
  else if h.kind = 2 then ceilDiv ((h.m + h.n) * h.rank * factorBytes h.ftype) 2048
  else 0

/-- A header as `trank` reads it (R166). -/
def TileHdr.word (h : TileHdr) : W64 :=
  BitVec.ofNat 64 (h.kind + (if h.int64 then 4 else 0) + h.ftype * 2 ^ 8 + h.m * 2 ^ 16 + h.n * 2 ^ 24 + h.rank * 2 ^ 32
    + h.gran * 2 ^ 40)

def denseHdr (m n : Nat) (int64 : Bool) : TileHdr := { kind := 1, m, n, rank := 0, ftype := 0, int64 }
def factorHdr (m n ft r : Nat) : TileHdr := { kind := 2, m, n, rank := r, ftype := ft, int64 := false }

/-- The header that a word names: none where it is inconsistent or sets a reserved bit (R166, R190). -/
def hdrOfWord (w : W64) : Option TileHdr :=
  let x := w.toNat
  let h : TileHdr :=
    { kind := bitsAt x 0 2, m := bitsAt x 16 8, n := bitsAt x 24 8, rank := bitsAt x 32 8, ftype := bitsAt x 8 4,
      int64 := bitsAt x 2 1 == 1 }
  let sized := decide (1 ≤ h.m) && decide (h.m ≤ 128) && decide (1 ≤ h.n) && decide (h.n ≤ 128)
  if bitsAt x 48 16 ≠ 0 ∨ bitsAt x 12 4 ≠ 0 ∨ bitsAt x 3 5 ≠ 0 then none
  else if h = .empty then some h
  else if h.kind = 1 ∧ sized ∧ h.rank = 0 ∧ h.ftype = 0 then some h
  else if h.kind = 2 ∧ sized ∧ h.int64 = false ∧ 1 ≤ h.ftype ∧ h.ftype ≤ 3 ∧ h.rank ≤ 64 then some h
  else none

/-- Granules in use, in issue order (R168). -/
def tileUsed (u : UnitCtx) : Nat := u.hdrs.toList.foldl (fun acc h => acc + h.gran) 0

/-- The tilepool register (R169). -/
def tilepoolWord (s : State) (need : Nat) : W64 := BitVec.ofNat 64 (tileUsed s.u + need * 2 ^ 32)

/-- The header of a tile register in issue order (R164). -/
def getHdr (s : State) (n : Nat) : TileHdr := if h : n < 16 then s.u.hdrs[n] else .empty

def setHdr (s : State) (n : Nat) (d : TileHdr) : State :=
  if h : n < 16 then { s with u := { s.u with hdrs := s.u.hdrs.set n d h } } else s

/-- The contents of a tile register as the operations performed so far leave them. -/
def getTile (s : State) (n : Nat) : TileBody := if h : n < 16 then s.u.tiles[n] else .empty

def setTile (s : State) (n : Nat) (b : TileBody) : State :=
  if h : n < 16 then { s with u := { s.u with tiles := s.u.tiles.set n b h } } else s

/-- A tile of a header with every entry +0 or 0 (R190). -/
def zeroTile (h : TileHdr) : TileBody :=
  { hdr := h, acc := if h.kind = 1 then List.replicate (h.m * h.n) 0 else [],
    u := if h.kind = 2 then List.replicate (h.m * h.rank) 0 else [],
    v := if h.kind = 2 then List.replicate (h.n * h.rank) 0 else [] }

/-- A list of rows of `n`. -/
def rowsOf (n count : Nat) (xs : List Nat) : List (List Nat) :=
  match count with
  | 0 => []
  | c + 1 => xs.take n :: rowsOf n c (xs.drop n)

/-- The list with row `i` of `n` replaced. -/
def putRow (n i : Nat) (xs row : List Nat) : List Nat := xs.take (n * i) ++ row ++ xs.drop (n * (i + 1))

/-- The free granules a result needs, and whether the pool falls short (R168). -/
def tileShort (s : State) (td : Nat) (h : TileHdr) (isSource : Bool) : Bool :=
  let need := if isSource then h.gran else h.gran - (getHdr s td).gran
  h.gran != 0 && decide (768 < tileUsed s.u + need)

/-! ### Operand descriptors (R170 to R174) -/

/-- A descriptor as read, with the tile dimensions it serves. `width` is the stored element's width; `out` marks an
operand written; `isB` an operand whose K runs down its tile columns; `start` counts the slots of its channel claimed
before its own. -/
structure Opnd where
  base : Nat
  scales : Nat
  rstride : Nat
  sstride : Nat
  ty : Nat
  enc : Nat
  flags : Nat
  ch : Nat
  nslot : Nat
  param : Nat
  tail : Nat
  isB : Bool
  out : Bool
  width : Nat
  rows : Nat
  cols : Nat
  start : Nat
  deriving DecidableEq, Repr

def Opnd.trans (o : Opnd) : Bool := o.flags % 2 == 1
def Opnd.chan (o : Opnd) : Bool := o.flags / 2 % 2 == 1

/-- The element type of an input operand; for the MX encodings none is named. -/
def Opnd.elemTy (o : Opnd) : ElemTy := (ElemTy.ofCode o.ty).getD .un8

/-- Read the fields of a descriptor (R170). `w` is the stored width of an output. -/
def parseOpnd (d : List Byte) (w : Option Nat) (isB : Bool) (rows cols : Nat) : Opnd :=
  let ty := fieldAt d 24 1
  let enc := fieldAt d 25 1
  { base := fieldAt d 0 8, scales := fieldAt d 8 8, rstride := fieldAt d 16 4, sstride := fieldAt d 20 4, ty, enc,
    flags := fieldAt d 26 1, ch := fieldAt d 27 1, nslot := fieldAt d 28 1, param := fieldAt d 29 1,
    tail := fieldAt d 30 2, isB, out := w.isSome,
    width := match w with | some w => w | none => storedBits enc ((ElemTy.ofCode ty).getD .un8), rows, cols, start := 0 }

/-- Stored rows, and the elements of each (R171). -/
def Opnd.stored (o : Opnd) : Nat := if o.trans then o.cols else o.rows
def Opnd.rowLen (o : Opnd) : Nat := if o.trans then o.rows else o.cols

/-- Bytes of a stored row; of a bitmask-sparse row the least it can take (R55). -/
def Opnd.rowBytes (o : Opnd) : Nat :=
  if o.rowLen = 0 then 0
  else if o.enc = 12 then 16 + ceilDiv o.rowLen 8
  else if o.enc = 13 then ceilDiv o.rowLen 32 * (4 * o.width)
  else ceilDiv (o.rowLen * o.width) 8

/-- The multiple that BASE and RSTRIDE keep (R174). SCALES and SSTRIDE are strides of records, which any number of bytes
satisfies: for an encoding without block records too (DESIGN CHOICE, log entry 17). -/
def Opnd.unit (o : Opnd) : Nat := if o.enc = 13 ∨ o.width % 8 ≠ 0 then 1 else o.width / 8

/-- A row of a bitmask-sparse operand is not 16-byte aligned (R174 step 2): RSTRIDE places every row but the first. -/
def Opnd.rowsUnaligned (o : Opnd) : Bool :=
  o.enc == 12 && ((!o.chan && decide (0 < o.stored) && o.base % 16 != 0) || (decide (1 < o.stored) && o.rstride % 16 != 0))

/-- The block or group length. -/
def Opnd.block (o : Opnd) : Nat := if o.enc = 1 ∨ o.enc = 2 then 32 * 2 ^ o.param else 32

/-- K, or tld's column index, runs along the stored row (R171). -/
def Opnd.along (o : Opnd) : Bool := o.isB == o.trans

/-- TYPE and PARAM fit ENC (R170, R172). -/
def Opnd.fits (o : Opnd) : Bool :=
  let p0 := o.param == 0
  if o.enc = 0 ∨ o.enc = 12 then decide (1 ≤ o.ty) && decide (o.ty ≤ 19) && p0
  else if o.enc = 1 then o.ty == 15 && decide (o.param ≤ 2)
  else if o.enc = 2 then o.ty == 16 && decide (o.param ≤ 2)
  else if 3 ≤ o.enc ∧ o.enc ≤ 7 then o.ty == 0 && p0
  else if o.enc = 13 then
    (ElemTy.ofCode o.ty).elim false slicedType && decide (1 ≤ o.param) && decide (o.param ≤ o.width)
  else false

/-- Step 3 of R174 for one descriptor. A channel's number and its slot count are step 4's to check (log entry 17). -/
def Opnd.configBad (o : Opnd) : Bool :=
  decide (4 ≤ o.flags) || o.tail != 0
  || (!o.chan && (o.ch != 0 || o.nslot != 0))
  || (if o.out then o.ty != 0 || o.enc != 0 || o.scales != 0 || o.sstride != 0 || o.param != 0
      else !o.fits || (!(decide (1 ≤ o.enc) && decide (o.enc ≤ 7)) && o.scales != 0)
        || (decide (12 ≤ o.enc) && !o.along))
  || (decide (1 < o.stored) && decide (o.rstride < o.rowBytes))

/-- Steps 2 and 3 of R174 for the descriptor at an address. -/
def Opnd.check (o : Opnd) (va : Nat) : Option Cause :=
  if va % 32 ≠ 0 then some (.of 0x06 (BitVec.ofNat 64 va) 0)
  else if (!o.chan ∧ o.base % o.unit ≠ 0) ∨ o.rstride % o.unit ≠ 0 ∨ o.rowsUnaligned then some (.of 0x06 (BitVec.ofNat 64 o.base) 0)
  else if o.configBad then some (.of 0x10 0 0)
  else none

/-- Step 4 of R174. A CH above 15 names no configured channel, and no slot is none of the 1 to 64 of R170 (log entry 17). -/
def Opnd.chanCheck (s : State) (o : Opnd) : Option Cause :=
  if !o.chan then none
  else
    let c := getChan s o.ch
    let reach := if o.stored = 0 then 0 else (o.stored - 1) * o.rstride + o.rowBytes
    if c.scount = 0 ∨ o.nslot = 0 ∨ c.scount < o.nslot ∨ o.nslot * c.slotBytes < reach ∨ !roleFree (if o.out then c.prod else c.cons) 8
    then some (.of 0x0F (BitVec.ofNat 64 o.ch) 0) else none

/-- Read a record of `n` bytes as part of the instruction (R165, R174 step 1, R232): class 15, the thread's own stores
seen. A fault reports the record's address. -/
def readRecord (s : State) (va n : Nat) : Except Cause (List Byte × State) :=
  let fail (code : Nat) : Cause := .of code (BitVec.ofNat 64 va) 0
  match elemFault s (threadSpace s) .load va n, translateRun (threadSpace s) .load n va s with
  | some e, _ => .error (fail e.code)
  | none, .error e => .error (fail e.code)
  | none, .ok (locs, s1) =>
    match dataError s1 va locs with
    | some e => .error (fail e.code)
    | none =>
      let s2 := loadLines locs s1
      .ok (locs.map (viewByte s2), s2)

/-- Read a 32-byte descriptor. -/
def readDesc (s : State) (va : Nat) : Except Cause (List Byte × State) := readRecord s va 32

/-- Read and check one descriptor: steps 1 to 3 of R174. -/
def readOpnd (s : State) (va : W64) (w : Option Nat) (isB : Bool) (rows cols : Nat) :
    Except Cause (List Byte × Opnd × State) :=
  match readDesc s va.toNat with
  | .error c => .error c
  | .ok (d, s1) =>
    let o := parseOpnd d w isB rows cols
    match o.check va.toNat with
    | some c => .error c
    | none => .ok (d, o, s1)

/-! ### Engine accesses -/

/-- The address space of the matrix engine: it acts for a thread, with U (R313). -/
def engineSpace (s : State) : Space := mySpace s true

/-- The locations of bytes of an operand from an offset on (R171). A run beyond the slots is Channel misuse. -/
def opndLocs (s : State) (acc : Access) (o : Opnd) (off n : Nat) : Except MemFault (List Nat × State) :=
  if o.chan then
    let c := getChan s o.ch
    if c.scount = 0 ∨ o.nslot * c.slotBytes < off + n then .error { code := 0x0F, addr := o.ch }
    else .ok ((List.range n).map (fun i =>
      c.loc (o.start + (off + i) / c.slotBytes) ((off + i) % c.slotBytes)), s)
  else translateRun (engineSpace s) acc n (wrapTo 64 ((o.base + off : Nat) : Int)) s

/-- The first error among the lines that an engine reads. -/
def engineError (s : State) (va : Nat) : List Nat → Option MemFault
  | [] => none
  | loc :: locs =>
    match lineError s loc with
    | some c => some { code := c, addr := va }
    | none => engineError s (va + 1) locs

/-- Bytes of an operand, as memory and the CSP hold them. -/
def opndBytes (s : State) (o : Opnd) (off n : Nat) : Except MemFault (List Byte × State) :=
  match opndLocs s .load o off n with
  | .error e => .error e
  | .ok (locs, s1) =>
    match engineError s1 (o.base + off) locs with
    | some e => .error e
    | none => .ok (locs.map (rawByte s1), s1)

/-- The 32-bit block record of a line and a block (R171); 0 for an encoding without records. -/
def opndRecord (s : State) (o : Opnd) (line g : Nat) : Except MemFault (Nat × State) :=
  if o.enc = 0 ∨ 8 ≤ o.enc then .ok (0, s)
  else
    let off := if o.along then line * o.sstride + 4 * g else g * o.sstride + 4 * line
    let so : Opnd := { o with base := o.scales, flags := 0 }
    match opndBytes s so off 4 with
    | .error e => .error e
    | .ok (bs, s1) => .ok (leValue bs, s1)

/-- The codes of a whole stored row, bitmask-sparse, after its header's checks (R57, R172). -/
def sparseRow (s : State) (o : Opnd) (t : Nat) : Except MemFault (List Nat × State) :=
  let off := t * o.rstride
  let n := o.rowLen
  let w := o.width
  let bad : MemFault := { code := 0x14, addr := if o.chan then o.ch else wrapTo 64 ((o.base + off : Nat) : Int) }
  match opndBytes s o off 16 with
  | .error e => .error e
  | .ok (h, s1) =>
    if !sparseHeaderOk o.elemTy n h then .error bad
    else
      match opndBytes s1 o (off + 16) (fieldAt h 0 4 - 16) with
      | .error e => .error e
      | .ok (body, s2) =>
        let mask := leValue (body.take (ceilDiv n 8))
        if popCount n mask ≠ fieldAt h 8 4 ∨ 2 ^ n ≤ mask then .error bad
        else .ok (sparseValues w mask (leValue (body.drop (ceilDiv n 8))) n 0 0, s2)

/-- The codes of a whole stored row, bit-sliced, read to PARAM planes (R172). -/
def slicedRow (s : State) (o : Opnd) (t : Nat) : Except MemFault (List Nat × State) :=
  let w := o.width
  let rec blocks (s : State) : Nat → Nat → Except MemFault (List Nat × State)
    | 0, _ => .ok ([], s)
    | k + 1, b =>
      match opndBytes s o (t * o.rstride + b * (4 * w)) (4 * o.param) with
      | .error e => .error e
      | .ok (bs, s1) =>
        let planes := leValue bs
        let xs := (List.range 32).map (slicedElem w 32 o.param planes)
        match blocks s1 k (b + 1) with
        | .error e => .error e
        | .ok (rest, s2) => .ok (xs ++ rest, s2)
  match blocks s (ceilDiv o.rowLen 32) 0 with
  | .error e => .error e
  | .ok (xs, s1) => .ok (xs.take o.rowLen, s1)

/-- The codes of a whole stored row. -/
def storedRow (s : State) (o : Opnd) (t : Nat) : Except MemFault (List Nat × State) :=
  if o.enc = 12 then sparseRow s o t
  else if o.enc = 13 then slicedRow s o t
  else
    match opndBytes s o (t * o.rstride) o.rowBytes with
    | .error e => .error e
    | .ok (bs, s1) => .ok (unpack o.width o.rowLen (leValue bs), s1)

/-- Element `p` of each of `n` stored rows from `t` on: a tile row or column across the stored rows. -/
def storedColumn (o : Opnd) (p : Nat) : Nat → Nat → State → Except MemFault (List Nat × State)
  | 0, _, s => .ok ([], s)
  | n + 1, t, s =>
    let bit := p * o.width
    match opndBytes s o (t * o.rstride + bit / 8) ((bit % 8 + o.width + 7) / 8) with
    | .error e => .error e
    | .ok (bs, s1) =>
      match storedColumn o p n (t + 1) s1 with
      | .error e => .error e
      | .ok (rest, s2) => .ok (bitsAt (leValue bs) (bit % 8) o.width :: rest, s2)

/-- The codes of tile row `r`. -/
def opndRow (s : State) (o : Opnd) (r : Nat) : Except MemFault (List Nat × State) :=
  if o.trans then storedColumn o r o.stored 0 s else storedRow s o r

/-- The records that tile row `r` uses, one for each column: A's line is the row, B's the column. -/
def rowRecords (o : Opnd) (r : Nat) : Nat → Nat → State → Except MemFault (List Nat × State)
  | 0, _, s => .ok ([], s)
  | n + 1, c, s =>
    let rec_ := if o.isB then opndRecord s o c (r / o.block) else opndRecord s o r (c / o.block)
    match rec_ with
    | .error e => .error e
    | .ok (v, s1) =>
      match rowRecords o r n (c + 1) s1 with
      | .error e => .error e
      | .ok (rest, s2) => .ok (v :: rest, s2)

/-- Tile row `r` of an input operand: each element's code with its record. -/
def inputRow (s : State) (o : Opnd) (r : Nat) : Except MemFault (List (Nat × Nat) × State) :=
  match opndRow s o r with
  | .error e => .error e
  | .ok (codes, s1) =>
    match rowRecords o r o.cols 0 s1 with
    | .error e => .error e
    | .ok (recs, s2) => .ok (codes.zip recs, s2)

/-- Every tile row of an input operand. -/
def inputRows (o : Opnd) : Nat → Nat → State → Except MemFault (List (List (Nat × Nat)) × State)
  | 0, _, s => .ok ([], s)
  | n + 1, r, s =>
    match inputRow s o r with
    | .error e => .error e
    | .ok (x, s1) =>
      match inputRows o n (r + 1) s1 with
      | .error e => .error e
      | .ok (rest, s2) => .ok (x :: rest, s2)

/-- The codes of `n` stored rows from `t` on. -/
def storedRows (o : Opnd) : Nat → Nat → State → Except MemFault (List (List Nat) × State)
  | 0, _, s => .ok ([], s)
  | n + 1, t, s =>
    match storedRow s o t with
    | .error e => .error e
    | .ok (x, s1) =>
      match storedRows o n (t + 1) s1 with
      | .error e => .error e
      | .ok (rest, s2) => .ok (x :: rest, s2)

/-- Every tile row of an operand: one whose stored rows are records or bit planes is read by stored rows. -/
def inputMatrix (s : State) (o : Opnd) : Except MemFault (List (List (Nat × Nat)) × State) :=
  if o.trans && decide (12 ≤ o.enc) then
    match storedRows o o.stored 0 s with
    | .error e => .error e
    | .ok (xs, s1) => .ok ((transposed 0 o.rowLen xs).map (fun r => r.map (fun v => (v, 0))), s1)
  else inputRows o o.rows 0 s

/-- The exact value of an element as tld and tldf take it (R172, R51). -/
def Opnd.value (o : Opnd) (x : Nat × Nat) : Exact := storedValue o.enc o.elemTy x.2 x.1

/-- The factor that an element gives to the products of R70: the difference q - z of a grouped integer. -/
def Opnd.factor (o : Opnd) (x : Nat × Nat) : Exact :=
  if o.enc = 1 ∨ o.enc = 2 then .ofInt ((x.1 : Int) - recZero o.enc x.2) else o.value x

/-- A grouped operand. -/
def Opnd.grouped (o : Opnd) : Bool := o.enc == 1 || o.enc == 2

/-- An unscaled integer operand (R173). -/
def Opnd.isInt (o : Opnd) : Bool := (o.enc == 0 || decide (12 ≤ o.enc)) && !o.elemTy.isFloat

/-- Drop the cached copies of the lines that an engine writes, in the issuing cluster (R243). -/
def dropLines (s : State) (ws : List StoreByte) : State :=
  { s with u := { s.u with cache := s.u.cache.filter (fun c => !(ws.any (fun w => w.loc / 64 == c.line && isDram w.loc))) } }

/-- An engine writes bytes. -/
def engineWrite (s : State) (ws : List StoreByte) : State :=
  performBytes ((coveredLines ws).foldl healLine (dropLines s ws)) ws

/-- Locations of the bytes of one stored place, and the bytes with their masks. -/
def maskedBytes (locs : List Nat) (val mask : Nat) : List StoreByte :=
  (locs.zip (List.range locs.length)).map (fun p =>
    { loc := p.1, val := BitVec.ofNat 8 (val / 256 ^ p.2), mask := BitVec.ofNat 8 (mask / 256 ^ p.2) })

/-- The bytes of tile row `r` written across stored rows from `t` on; the last tile row pads with zero bits (R48). -/
def columnBytes (o : Opnd) (r : Nat) : List Nat → Nat → State → Except MemFault (List StoreByte × State)
  | [], _, s => .ok ([], s)
  | v :: vs, t, s =>
    let bit := r * o.width
    let n := (bit % 8 + o.width + 7) / 8
    match opndLocs s .store o (t * o.rstride + bit / 8) n with
    | .error e => .error e
    | .ok (locs, s1) =>
      let mask := if r + 1 = o.rows then 256 ^ n - 2 ^ (bit % 8) else (2 ^ o.width - 1) * 2 ^ (bit % 8)
      match columnBytes o r vs (t + 1) s1 with
      | .error e => .error e
      | .ok (rest, s2) => .ok (maskedBytes locs (v * 2 ^ (bit % 8)) mask ++ rest, s2)

/-- Write tile row `r` of an output operand, whole or not at all (R176). -/
def outputRow (s : State) (o : Opnd) (r : Nat) (vals : List Nat) : Except MemFault State :=
  if o.trans then
    match columnBytes o r vals 0 s with
    | .error e => .error e
    | .ok (ws, s1) => .ok (engineWrite s1 ws)
  else
    match opndLocs s .store o (r * o.rstride) o.rowBytes with
    | .error e => .error e
    | .ok (locs, s1) => .ok (engineWrite s1 (maskedBytes locs (pack o.width vals) (256 ^ o.rowBytes - 1)))

/-! ### Operations (R163, R175, R191 to R199) -/

/-- The stored width of an output: FMT's type, else the given one. -/
def outWidth (fmt dflt : Nat) : Nat :=
  match ElemTy.ofCode (if fmt = 0 then dflt else fmt) with
  | some t => t.width
  | none => 64

/-- The code of a dense tile's accumulator type: i64 or f64. -/
def accType (h : TileHdr) : Nat := if h.int64 then 14 else 1

/-- The operation moves no data because its granted size is zero, or its tile has rank 0 (R181, R193). -/
def TileOp.still (p : TileOp) : Bool :=
  if p.opc = 0xA3 ∨ p.opc = 0xA4 then p.gm == 0 || p.gn == 0
  else if p.opc = 0xA7 then p.gm == 0 || p.gn == 0 || p.gk == 0
  else if p.opc = 0xA6 then p.hdr.rank == 0
  else false

/-- The operands of an operation, first and second, without their channel starts. For tst, tstf and tcvt `hdr` is the
source's header. R171 lays out `tld`'s operand as an A operand; the model lays out U and V of `tldf` so too, their K along
the factor columns (log entry 17). -/
def TileOp.opnds (p : TileOp) : List Opnd :=
  if p.opc = 0xA3 then [parseOpnd p.descA none false p.gm p.gn]
  else if p.opc = 0xA4 then
    [parseOpnd p.descA none false p.gm p.val.toNat, parseOpnd p.descB none false p.gn p.val.toNat]
  else if p.opc = 0xA5 then [parseOpnd p.descA (some 64) false p.hdr.m p.hdr.n]
  else if p.opc = 0xA6 then
    let w := outWidth p.fmt p.hdr.ftype
    [parseOpnd p.descA (some w) false p.hdr.m p.hdr.rank, parseOpnd p.descB (some w) false p.hdr.n p.hdr.rank]
  else if p.opc = 0xA7 then [parseOpnd p.descA none false p.gm p.gk, parseOpnd p.descB none true p.gk p.gn]
  else if p.opc = 0xAE then [parseOpnd p.descA (some (outWidth p.fmt (accType p.hdr))) false p.hdr.m p.hdr.n]
  else []

/-- The channel operands that an operation transfers through. -/
def TileOp.chans (p : TileOp) : List Opnd := if p.still then [] else p.opnds.filter Opnd.chan

/-- Rows of an operation that touches memory or channels (R175). -/
def TileOp.rowCount (p : TileOp) : Nat :=
  if p.still then 0
  else if p.opc = 0xA3 ∨ p.opc = 0xA7 then p.gm
  else if p.opc = 0xA4 then p.gm + p.gn
  else if p.opc = 0xA5 ∨ p.opc = 0xAE then p.hdr.m
  else if p.opc = 0xA6 then p.hdr.m + p.hdr.n
  else 0

/-- The operands with the first slot of each: an operation's slots are the last that its channel has had claimed, its
first operand's before its second's. -/
def placeOpnds (s : State) : List Opnd → List Opnd
  | [] => []
  | o :: os =>
    let rest := placeOpnds s os
    let after := os.foldl (fun acc x => if x.chan && x.ch == o.ch && x.out == o.out then acc + x.nslot else acc) 0
    let c := getChan s o.ch
    let pos := if o.out then c.ppos + c.claimedOut else c.cpos + c.claimedIn
    { o with start := pos - o.nslot - after } :: rest

/-- The exact FP64 value of an accumulator. -/
def accValue (h : TileHdr) (c : Nat) : Exact := if h.int64 then .ofInt (signedOf 64 c) else dec64 c

/-- A row of factor codes as exact values. -/
def factorRow (ft : Nat) (row : List Nat) : List Exact := row.map (factorFmt ft).decode

/-- One block of a matrix sum on FP64 accumulators (R69 to R72). -/
def blockStep (oa ob : Opnd) (acc : Nat) (xs : List ((Nat × Nat) × (Nat × Nat))) : Nat :=
  let v := blockSum (xs.map (fun e => (oa.factor e.1).mul (ob.factor e.2)))
  let v := match xs with
    | [] => v
    | e :: _ =>
      if oa.grouped then groupScaled (recScale e.1.2) v
      else if ob.grouped then groupScaled (recScale e.2.2) v else v
  rnd64 ((dec64 acc).add v .rne)

/-- Blocks of 32 in ascending order (R69). -/
def blocksOf {α : Type} : Nat → List α → List (List α)
  | 0, _ => []
  | n + 1, xs => if xs.isEmpty then [] else xs.take 32 :: blocksOf n (xs.drop 32)

/-- One output of `tmm`, from its accumulator (R69). -/
def matrixSum (oa ob : Opnd) (int64 : Bool) (acc : Nat) (a b : List (Nat × Nat)) : Nat :=
  let xs := a.zip b
  if int64 then
    wrapTo 64 (xs.foldl (fun t e => t + oa.elemTy.intOf e.1.1 * ob.elemTy.intOf e.2.1) (acc : Int))
  else (blocksOf (xs.length / 32 + 1) xs).foldl (blockStep oa ob) acc

/-- The random word of a `tcvt` entry under RSR (R199, R64). -/
def tcvtRnd (s : State) (p : TileOp) (i j : Nat) : Rnd :=
  match p.rnd with
  | 0 => .rne | 1 => .rtz | 2 => .rdn | 3 => .rup | 4 => .rmm
  | _ => .rsr (philox p.seed.toNat ((i * 128 + j) % 65536 + p.c0hi % 65536 * 65536) (bitsAt p.stripSeq 0 32)
      (bitsAt p.stripSeq 32 32) ((s.u.index * 16 + 8) % 2 ^ 32) 0)

/-- One row of an operation with its placed operands; `b` holds the rows of `tmm`'s second operand (R175). -/
def opRow (s : State) (p : TileOp) (os : List Opnd) (b : List (List (Nat × Nat))) (i : Nat) : Except MemFault State :=
  match os with
  | [] => .ok s
  | oa :: rest =>
    let ob := rest.headD oa
    let body := getTile s p.td
    if p.opc = 0xA3 then
      match inputRow s oa i with
      | .error e => .error e
      | .ok (xs, s1) =>
        let row := xs.map (fun x =>
          if p.hdr.int64 then wrapTo 64 (oa.elemTy.intOf x.1) else rnd64 (oa.value x))
        .ok (setTile s1 p.td { body with acc := putRow p.gn i body.acc row })
    else if p.opc = 0xA4 then
      let f := factorFmt p.fmt
      let inU := decide (i < p.gm)
      match inputRow s (if inU then oa else ob) (if inU then i else i - p.gm) with
      | .error e => .error e
      | .ok (xs, s1) =>
        let row := xs.map (fun x => f.round ((if inU then oa else ob).value x) .rne)
        .ok (setTile s1 p.td (if inU then { body with u := putRow p.val.toNat i body.u row }
          else { body with v := putRow p.val.toNat (i - p.gm) body.v row }))
    else if p.opc = 0xA5 then outputRow s oa i ((body.acc.drop (p.hdr.n * i)).take p.hdr.n)
    else if p.opc = 0xA6 then
      let inU := decide (i < p.hdr.m)
      let src := factorFmt p.hdr.ftype
      let dst := factorFmt (if p.fmt = 0 then p.hdr.ftype else p.fmt)
      let k := if inU then i else i - p.hdr.m
      let row := ((if inU then body.u else body.v).drop (p.hdr.rank * k)).take p.hdr.rank
      outputRow s (if inU then oa else ob) k (row.map (fun c => dst.round (src.decode c) .rne))
    else if p.opc = 0xA7 then
      match inputRow s oa i with
      | .error e => .error e
      | .ok (a, s1) =>
        let old := (body.acc.drop (p.gn * i)).take p.gn
        let row := (List.range p.gn).map (fun j =>
          matrixSum oa ob p.hdr.int64 (if p.z then 0 else old.getD j 0) a (b.map (fun r => r.getD j (0, 0))))
        .ok (setTile s1 p.td { body with acc := putRow p.gn i body.acc row })
    else
      let t := (ElemTy.ofCode (if p.fmt = 0 then accType p.hdr else p.fmt)).getD .f64
      let sigma := FloatFmt.fp32.decode (bitsAt p.val.toNat 0 32)
      let row := (body.acc.drop (p.hdr.n * i)).take p.hdr.n
      outputRow s oa i ((row.zip (List.range row.length)).map (fun e =>
        roundTo 0 t (sigma.mul (accValue p.hdr e.1)) (tcvtRnd s p i e.2)))

/-- Dense FP64 entries of a factor pair, each exact sum rounded once (R197, R178). -/
def denseOf (fu fv : FloatFmt) (u v : List (List Nat)) : List Nat :=
  u.flatMap (fun ur => v.map (fun vr => rnd64 (dotExact (ur.map fu.decode) (vr.map fv.decode))))

/-- A factored tile's rows. -/
def TileBody.us (t : TileBody) : List (List Nat) := rowsOf t.hdr.rank t.hdr.m t.u
def TileBody.vs (t : TileBody) : List (List Nat) := rowsOf t.hdr.rank t.hdr.n t.v

/-- The wider of two factor types: f64 over f32 over bf16. -/
def widerType (a b : Nat) : Nat := if a ≤ b then a else b

/-- The codes of a factor converted to a wider type, exactly. -/
def widenRows (src dst : Nat) (m : List (List Nat)) : List (List Nat) :=
  if src = dst then m else m.map (fun r => r.map (fun c => (factorFmt dst).round ((factorFmt src).decode c) .rne))

/-- The exact core of `tlmm`: Va transposed times Ub (R195), by rows of ra. -/
def lowRankCore (ta tb : TileBody) : List (List Exact) :=
  let va := transposed 0 ta.hdr.rank ta.vs
  let ub := transposed 0 tb.hdr.rank tb.us
  va.map (fun x => ub.map (fun y => dotExact (factorRow ta.hdr.ftype x) (factorRow tb.hdr.ftype y)))

/-- The factors of `tlmm` (R195). -/
def lowRankFactors (ta tb : TileBody) : Factors :=
  let ft := widerType ta.hdr.ftype tb.hdr.ftype
  let f := factorFmt ft
  let g := lowRankCore ta tb
  if ta.hdr.rank ≤ tb.hdr.rank then
    { u := widenRows ta.hdr.ftype ft ta.us,
      v := tb.vs.map (fun r => g.map (fun gr => f.round (dotExact (factorRow tb.hdr.ftype r) gr) .rne)),
      rank := ta.hdr.rank }
  else
    let gt := transposed (.zero false) tb.hdr.rank g
    { u := ta.us.map (fun r => gt.map (fun gc => f.round (dotExact (factorRow ta.hdr.ftype r) gc) .rne)),
      v := widenRows tb.hdr.ftype ft tb.vs, rank := tb.hdr.rank }

/-- The exact product of `tlmm` as dense FP64 entries (R178 policy 1). -/
def lowRankDense (ta tb : TileBody) : List Nat :=
  let gt := transposed (.zero false) tb.hdr.rank (lowRankCore ta tb)
  ta.us.flatMap (fun r =>
    let x := gt.map (fun gc => dotExact (factorRow ta.hdr.ftype r) gc)
    tb.vs.map (fun vr => rnd64 (dotExact x (factorRow tb.hdr.ftype vr))))

/-- The factors of `tadd` (R196). -/
def sumFactors (ta tb : TileBody) : Factors :=
  let ft := widerType ta.hdr.ftype tb.hdr.ftype
  let join (x y : List (List Nat)) : List (List Nat) := (x.zip y).map (fun e => e.1 ++ e.2)
  { u := join (widenRows ta.hdr.ftype ft ta.us) (widenRows tb.hdr.ftype ft tb.us),
    v := join (widenRows ta.hdr.ftype ft ta.vs) (widenRows tb.hdr.ftype ft tb.vs), rank := ta.hdr.rank + tb.hdr.rank }

/-- A factored tile of a header's type from factors. -/
def factorTile (m n ft : Nat) (x : Factors) : TileBody :=
  { hdr := factorHdr m n ft x.rank, acc := [], u := x.u.flatten, v := x.v.flatten }

/-- A dense tile. -/
def denseTile (m n : Nat) (int64 : Bool) (acc : List Nat) : TileBody := { hdr := denseHdr m n int64, acc, u := [], v := [] }

/-- What td holds before the first row: its old rows where the operation accumulates, else zeros. -/
def beginOp (s : State) (p : TileOp) : State :=
  if p.still then s
  else if p.opc = 0xA3 then setTile s p.td (zeroTile p.hdr)
  else if p.opc = 0xA4 then
    let r := p.val.toNat
    setTile s p.td { hdr := p.hdr, acc := [], u := List.replicate (p.gm * r) 0, v := List.replicate (p.gn * r) 0 }
  else if p.opc = 0xA7 then
    if !p.z ∧ (getTile s p.td).hdr = p.hdr then s else setTile s p.td (zeroTile p.hdr)
  else s

/-- What an operation leaves once its rows are done; the whole effect of one that touches no memory. -/
def endOp (s : State) (p : TileOp) : State :=
  let ta := getTile s p.ta
  let tb := getTile s p.tb
  let h := p.hdr
  if p.opc = 0xA1 ∨ p.opc = 0xA2 then setTile s p.td (zeroTile h)
  else if p.opc = 0xA4 ∧ !p.still ∧ h.kind = 1 then
    let b := getTile s p.td
    let r := p.val.toNat
    let f := factorFmt p.fmt
    setTile s p.td (denseTile h.m h.n false (denseOf f f (rowsOf r p.gm b.u) (rowsOf r p.gn b.v)))
  else if p.opc = 0xA7 ∧ p.still ∧ p.z then setTile s p.td (zeroTile h)
  else if p.opc = 0xA8 then
    setTile s p.td (if h.kind = 1 then denseTile h.m h.n false (lowRankDense ta tb)
      else factorTile h.m h.n h.ftype (lowRankFactors ta tb))
  else if p.opc = 0xA9 then
    if ta.hdr.kind = 1 then
      setTile s p.td (denseTile h.m h.n h.int64 ((ta.acc.zip tb.acc).map (fun e =>
        if h.int64 then (e.1 + e.2) % 2 ^ 64 else rnd64 ((dec64 e.1).add (dec64 e.2) .rne))))
    else
      let x := sumFactors ta tb
      let f := factorFmt (widerType ta.hdr.ftype tb.hdr.ftype)
      setTile s p.td (if h.kind = 1 then denseTile h.m h.n false (denseOf f f x.u x.v)
        else factorTile h.m h.n h.ftype x)
  else if p.opc = 0xAB then
    setTile s p.td (if ta.hdr.kind = 1 then ta
      else denseTile h.m h.n false (denseOf (factorFmt ta.hdr.ftype) (factorFmt ta.hdr.ftype) ta.us ta.vs))
  else if p.opc = 0xAD then
    let x := dec64 p.val.toNat
    setTile s p.td (if h.kind = 1 then
        denseTile h.m h.n false (ta.acc.map (fun a => rnd64 (x.mul (dec64 a))))
      else
        let f := factorFmt h.ftype
        { ta with hdr := h, u := ta.u.map (fun a => f.round (x.mul (f.decode a)) .rne) })
  else s

/-- Rows from `i` on: the state after them, and the row and fault where one stops (R175, R176). -/
def runRows (p : TileOp) (os : List Opnd) (b : List (List (Nat × Nat))) :
    Nat → Nat → State → State × Option (Nat × MemFault)
  | 0, _, s => (s, none)
  | n + 1, i, s =>
    match opRow s p os b i with
    | .error e => (s, some (i, e))
    | .ok s1 => runRows p os b n (i + 1) s1

/-- Perform up to `n` rows of an operation from its row on (R175), and its end with its last row: the state, and the row
and fault where it is suspended. Every row of `tmm`'s second operand is read before the rows of its first, and the codes
of a tile row before its block records: of several faults of one row the first in that order is reported (log entry 17). -/
def performOp (n : Nat) (s : State) (p : TileOp) : State × Option (Nat × MemFault) :=
  let os := placeOpnds s p.opnds
  let s1 := if p.row = 0 then beginOp s p else s
  let left := p.rowCount - p.row
  let b := if p.opc = 0xA7 ∧ 0 < min n left then
      match os with
      | _ :: ob :: _ => inputMatrix s1 ob
      | _ => .ok ([], s1)
    else .ok ([], s1)
  match b with
  | .error e => (s1, some (p.row, e))
  | .ok (rows, s2) =>
    match runRows p os rows (min n left) p.row s2 with
    | (s3, some e) => (s3, some e)
    | (s3, none) => (if left ≤ n then endOp s3 p else s3, none)

end Sys2Proof.Machine
end

