-- ==== Sys2Proof/Machine/Copy.lean ====
section
/-! DEFINITION. Tensor shape records and the copy engine (R228 to R233). -/

namespace Sys2Proof.Machine

open Sys2Proof

/-! ### Records (R228) -/

/-- A tensor shape record. Extents and strides stand for dimensions 0 to 4. -/
structure TensorRec where
  base : Nat
  ext : List Nat
  str : List Int
  scales : Nat
  enc : Nat
  ty : Nat
  ndim : Nat
  blk : Nat
  reserved : Nat
  deriving DecidableEq, Repr

/-- The fields of a record's 64 bytes (R228). -/
def tensorOf (d : List Byte) : TensorRec :=
  { base := fieldAt d 0 8, ext := (List.range 5).map (fun n => fieldAt d (8 + 4 * n) 4),
    str := (List.range 5).map (fun n => signedOf 32 (fieldAt d (28 + 4 * n) 4)), scales := fieldAt d 48 8,
    enc := fieldAt d 56 1, ty := fieldAt d 57 1, ndim := fieldAt d 58 1, blk := fieldAt d 59 1,
    reserved := fieldAt d 60 4 }

def TensorRec.extent (r : TensorRec) (n : Nat) : Nat := r.ext.getD n 0
def TensorRec.stride (r : TensorRec) (n : Nat) : Int := r.str.getD n 0

/-- The element's register type, of ENC 0 and 13. -/
def TensorRec.elemTy (r : TensorRec) : ElemTy := (ElemTy.ofCode r.ty).getD .un8

/-- Bits of a stored element. -/
def TensorRec.width (r : TensorRec) : Nat := storedBits r.enc r.elemTy

/-- An encoding with block records. -/
def TensorRec.scaled (r : TensorRec) : Bool := decide (1 ≤ r.enc) && decide (r.enc ≤ 7)

/-- An encoding blocked along dimension 0. -/
def TensorRec.blocked (r : TensorRec) : Bool := r.scaled || r.enc == 13

/-- The block length. -/
def TensorRec.block (r : TensorRec) : Nat :=
  if r.enc = 13 then 16 * 2 ^ r.blk else if r.enc = 1 ∨ r.enc = 2 then 32 * 2 ^ r.blk else 32

/-- The number of elements. -/
def TensorRec.count (r : TensorRec) : Nat := ((List.range r.ndim).map r.extent).foldl (· * ·) 1

/-- A record with an extent of 0. -/
def TensorRec.isEmpty (r : TensorRec) : Bool := r.count == 0

/-! ### The checks (R229) -/

/-- Reason 6. -/
def TensorRec.badForm (r : TensorRec) : Bool :=
  r.ndim == 0 || decide (5 < r.ndim) || r.reserved != 0 || (r.ext.drop r.ndim).any (fun e => e != 0)
  || (r.str.drop r.ndim).any (fun e => e != 0) || (!r.scaled && r.scales != 0)

/-- Reason 3. -/
def TensorRec.badFormat (r : TensorRec) : Bool :=
  if r.enc = 0 then !(decide (1 ≤ r.ty) && decide (r.ty ≤ 19)) || r.blk != 0
  else if r.enc = 1 ∨ r.enc = 2 then r.ty != 0 || decide (2 < r.blk)
  else if r.enc ≤ 11 then r.ty != 0 || r.blk != 0
  else if r.enc = 13 then r.ty == 0 || decide (19 < r.ty) || !slicedType r.elemTy || decide (3 < r.blk)
  else true

/-- Reason 2: of packed forms, every line must start on a byte. -/
def TensorRec.misaligned (r : TensorRec) : Bool :=
  let packed := r.enc == 13 || r.width % 8 != 0
  (!packed && r.base % (r.width / 8) != 0) || r.scales % 4 != 0
  || (packed && (List.range r.ndim).any (fun n =>
      decide (1 ≤ n) && decide (1 < r.extent n) && r.stride n * (r.width : Int) % 8 != 0))

/-- Reason 7. -/
def TensorRec.badBlocks (r : TensorRec) : Bool := r.blocked && (r.stride 0 != 1 || r.extent 0 % r.block != 0)

/-- Insert a dimension by the size of its stride. -/
def insertDim (d : Nat × Nat) : List (Nat × Nat) → List (Nat × Nat)
  | [] => [d]
  | e :: es => if d.1 ≤ e.1 then d :: e :: es else e :: insertDim d es

/-- Each stride is at least the span before it. -/
def spansOk : Nat → List (Nat × Nat) → Bool
  | _, [] => true
  | least, (s, e) :: ds => decide (least ≤ s) && spansOk (s * e) ds

/-- Reason 1: the dimensions of extent above 1 by the size of their strides; a broadcast of the source is left out. -/
def TensorRec.badStrides (r : TensorRec) (source : Bool) : Bool :=
  let dims := ((List.range r.ndim).filter (fun n => decide (1 < r.extent n) && !(source && r.stride n == 0))).map
    (fun n => ((r.stride n).natAbs, r.extent n))
  !spansOk 1 (dims.foldr insertDim [])

/-- Reason 4. -/
def TensorRec.tooLarge (r : TensorRec) : Bool := decide (2 ^ 40 < ceilDiv (r.count * r.width) 8)

/-- The first reason why a record fails, in the order of R229. -/
def TensorRec.reason (r : TensorRec) (source : Bool) : Option Nat :=
  if r.badForm then some 6 else if r.badFormat then some 3 else if r.misaligned then some 2
  else if r.badBlocks then some 7 else if r.badStrides source then some 1 else if r.tooLarge then some 4 else none

/-- Reason 5: the shapes differ. A record with an extent of 0 passes it. -/
def shapesDiffer (dst src : TensorRec) : Bool :=
  !dst.isEmpty && !src.isEmpty && (dst.ndim != src.ndim || dst.ext != src.ext)

/-! ### Hulls (R231) -/

/-- Both records agree in everything but their addresses, with STR0 = 1. -/
def sameShape (dst src : TensorRec) : Bool :=
  dst.enc == src.enc && dst.ty == src.ty && dst.ndim == src.ndim && dst.blk == src.blk && dst.ext == src.ext
  && dst.str == src.str && dst.stride 0 == 1

/-- The lowest and highest byte of a record's elements and block records; none for an extent of 0. -/
def TensorRec.hull (r : TensorRec) : Option (Int × Int) :=
  if r.isEmpty then none
  else
    let reach (neg : Bool) : Int := (List.range r.ndim).foldl (fun acc n =>
      let x := r.stride n * ((r.extent n : Int) - 1)
      if (x < 0) = neg then acc + x else acc) 0
    let w : Int := (r.width : Int)
    let lo := (r.base : Int) + reach true * w / 8
    let hi := (r.base : Int) + (reach false * w + w - 1) / 8
    if r.scaled then
      let recs := r.count / r.block
      some (if (r.scales : Int) < lo then r.scales else lo,
        if hi < (r.scales : Int) + 4 * recs - 1 then (r.scales : Int) + 4 * recs - 1 else hi)
    else some (lo, hi)

/-- Two hulls intersect. -/
def hullsMeet (a b : TensorRec) : Bool :=
  match a.hull, b.hull with
  | some (l1, h1), some (l2, h2) => decide (l1 ≤ h2) && decide (l2 ≤ h1)
  | _, _ => false

/-! ### Elements (R228, R230) -/

/-- The indices of the element at a place of the lexicographic order, index 0 fastest. -/
def indicesAt : List Nat → Nat → List Nat
  | [], _ => []
  | e :: es, k => k % e :: indicesAt es (k / e)

/-- The offset of an element in elements. -/
def elemOffset : List Int → List Nat → Int
  | s :: ss, i :: is => s * (i : Int) + elemOffset ss is
  | _, _ => 0

/-- The place of an element's bits: the address of the first byte, the bit in it, and how many bits. -/
def TensorRec.place (r : TensorRec) (idx : List Nat) : ElemAt :=
  let bits := elemOffset r.str idx * (r.width : Int)
  { idx := 0, va := wrapAddr ((r.base : Int) + bits / 8), bit := (bits % 8).toNat, bits := r.width }

/-- The place of plane `p` of an element of a bit-sliced record (R53). -/
def TensorRec.plane (r : TensorRec) (idx : List Nat) (p : Nat) : ElemAt :=
  let B := r.block
  let i0 := idx.headD 0
  let line := (elemOffset r.str (0 :: idx.drop 1)) * (r.width : Int) / 8
  let off := i0 / B * (r.width * B / 8) + (B * p + i0 % B) / 8
  { idx := 0, va := wrapAddr ((r.base : Int) + line + (off : Int)), bit := (B * p + i0 % B) % 8, bits := 1 }

/-- The address of the block record that an element uses. -/
def TensorRec.recordAt (r : TensorRec) (k : Nat) (idx : List Nat) : Nat :=
  let e0 := r.extent 0
  wrapAddr ((r.scales + 4 * (k / e0 * e0 / r.block + idx.headD 0 / r.block) : Nat) : Int)

/-- The address space of the copy engine of the unit's die (R313, R314). -/
def copySpace (s : State) : Space := { mySpace s true with agent := 128 + myDie s }

/-- A source byte as the copy reads it: one that the copy itself has overwritten reads as it was (R231). -/
def sourceByte (old : List (Nat × Byte)) (s : State) (loc : Nat) : Byte :=
  match old.find? (fun e => e.1 == loc) with
  | some e => e.2
  | none => rawByte s loc

/-- The bits at a place, read by the copy engine; `old` holds the bytes that the copy has overwritten. -/
def copyRead (old : List (Nat × Byte)) (s : State) (e : ElemAt) : Except MemFault (Nat × State) :=
  match translateRun (copySpace s) .load e.bytes e.va s with
  | .error f => .error f
  | .ok (locs, s1) =>
    match engineError s1 e.va locs with
    | some f => .error f
    | none => .ok (bitsAt (leValue (locs.map (sourceByte old s1))) e.bit e.bits, s1)

/-- The bits at the planes of an element, most significant first. -/
def copyReadPlanes (old : List (Nat × Byte)) (r : TensorRec) (idx : List Nat) :
    Nat → Nat → Nat → State → Except MemFault (Nat × State)
  | 0, _, acc, s => .ok (acc, s)
  | n + 1, p, acc, s =>
    match copyRead old s (r.plane idx p) with
    | .error f => .error f
    | .ok (b, s1) => copyReadPlanes old r idx n (p + 1) (2 * acc + b) s1

/-- The block record of an element; 0 where there is none. -/
def copyRecord (old : List (Nat × Byte)) (s : State) (r : TensorRec) (k : Nat) (idx : List Nat) : Except MemFault (Nat × State) :=
  if r.scaled then copyRead old s { idx := 0, va := r.recordAt k idx, bit := 0, bits := 32 } else .ok (0, s)

/-- The code of a source element and its block record. -/
def copySource (old : List (Nat × Byte)) (s : State) (r : TensorRec) (k : Nat) : Except MemFault (Nat × Nat × State) :=
  let idx := indicesAt r.ext k
  match copyRecord old s r k idx with
  | .error f => .error f
  | .ok (rc, s1) =>
    match (if r.enc = 13 then copyReadPlanes old r idx r.width 0 0 s1 else copyRead old s1 (r.place idx)) with
    | .error f => .error f
    | .ok (c, s2) => .ok (c, rc, s2)

/-- The destination code of an element (R230): bits move between records of ENC 0 and one TYPE, and every other value
goes by the store rule, by RNE. -/
def copyConvert (dst src : TensorRec) (dstRec srcRec code : Nat) : Nat :=
  if dst.enc = 0 ∧ src.enc = 0 ∧ dst.ty = src.ty then code
  else
    let x := storedValue src.enc src.elemTy srcRec code
    if dst.enc = 1 ∨ dst.enc = 2 then storeGrouped dst.enc dstRec x .rne
    else if 3 ≤ dst.enc ∧ dst.enc ≤ 7 then
      match e8m0Exp (bitsAt dstRec 0 8) with
      | none => (mxFormat dst.enc).nanCode
      | some e => (mxFormat dst.enc).round (x.scale (-e)) .rne
    else if 8 ≤ dst.enc ∧ dst.enc ≤ 11 then roundTo 0 (plainType dst.enc) x .rne
    else roundTo 0 dst.elemTy x .rne

/-- The bytes that a value writes at a place. -/
def copyBytes (s : State) (e : ElemAt) (v : Nat) : Except MemFault (List StoreByte × State) :=
  match translateRun (copySpace s) .store e.bytes e.va s with
  | .error f => .error f
  | .ok (locs, s1) => .ok (elemStore { at_ := e, locs } v, s1)

/-- The bytes that a value writes at its planes. -/
def copyPlanes (r : TensorRec) (idx : List Nat) (v : Nat) : Nat → Nat → State → Except MemFault (List StoreByte × State)
  | 0, _, s => .ok ([], s)
  | n + 1, p, s =>
    match copyBytes s (r.plane idx p) (bitsAt v (r.width - 1 - p) 1) with
    | .error f => .error f
    | .ok (ws, s1) =>
      match copyPlanes r idx v n (p + 1) s1 with
      | .error f => .error f
      | .ok (rest, s2) => .ok (ws ++ rest, s2)

/-- One element of a copy: the bytes that it writes, and the state before they are written. -/
def copyElem (old : List (Nat × Byte)) (s : State) (dst src : TensorRec) (k : Nat) :
    Except MemFault (List StoreByte × State) :=
  match copySource old s src k with
  | .error f => .error f
  | .ok (c, rc, s1) =>
    let idx := indicesAt dst.ext k
    match copyRecord [] s1 dst k idx with
    | .error f => .error f
    | .ok (drc, s2) =>
      let v := copyConvert dst src drc rc c
      if dst.enc = 13 then copyPlanes dst idx v dst.width 0 s2 else copyBytes s2 (dst.place idx) v

/-- The overwritten bytes of a copy whose hulls meet, with those that an element overwrites for the first time. -/
def saveBytes (s : State) (old : List (Nat × Byte)) (ws : List StoreByte) : List (Nat × Byte) :=
  old ++ ((ws.map (fun w => w.loc)).filter (fun l => !old.any (fun e => e.1 == l))).map (fun l => (l, rawByte s l))

/-- What a run of a copy comes to: the machine, the overwritten bytes, and the place and fault where it stops. -/
structure CopyRun where
  s : State
  old : List (Nat × Byte)
  stop : Option (Nat × MemFault)
  deriving DecidableEq, Repr

/-- Elements from place `i` of the traversal on. A copy whose hulls meet reads as though the whole source were read first,
also when it goes on after a fault (R231). -/
def copyElems (meets : Bool) (dst src : TensorRec) (total : Nat) (down : Bool) :
    Nat → Nat → List (Nat × Byte) → State → CopyRun
  | 0, _, old, s => { s, old, stop := none }
  | n + 1, i, old, s =>
    match copyElem old s dst src (if down then total - 1 - i else i) with
    | .error f => { s, old, stop := some (i, f) }
    | .ok (ws, s1) =>
      copyElems meets dst src total down n (i + 1) (if meets then saveBytes s1 old ws else old) (engineWrite s1 ws)

/-- Perform a copy from the element after those done (R230, R232). A copy with an extent of 0 accesses nothing. -/
def performCopy (s : State) (c : Copy) : CopyRun :=
  let dst := tensorOf c.dst
  let src := tensorOf c.src
  if dst.isEmpty || src.isEmpty then { s, old := c.saved, stop := none }
  else
    let total := dst.count
    let down := sameShape dst src && decide (src.base < dst.base)
    copyElems (hullsMeet dst src) dst src total down (total - c.done) c.done c.saved s

/-- A copy of the current unit replaced, by its timeline and number. -/
def setCopy (s : State) (c : Copy) : State :=
  { s with u := { s.u with copies := s.u.copies.map (fun r => if r.tl = c.tl ∧ r.num = c.num then c else r) } }

/-- CPSTAT of a timeline. -/
def setCsusp (s : State) (tl : Nat) (x : Option Suspend) : State :=
  if h : tl < 15 then { s with u := { s.u with csusp := s.u.csusp.set tl x h } } else s

def getCsusp (s : State) (tl : Nat) : Option Suspend := if h : tl < 15 then s.u.csusp[tl] else none

/-- The engine runs a copy of the current unit until it ends or stops at a fault (R232, R233). -/
def runCopy (s : State) (c : Copy) : State :=
  let r := performCopy s c
  match r.stop with
  | none => setCopy r.s { c with started := true, ended := true, saved := [] }
  | some (i, f) =>
    setCsusp (setCopy r.s { c with started := true, done := i, saved := r.old }) c.tl
      (some { sub := f.code, tval := BitVec.ofNat 64 f.addr, telem := c.tl, issuer := c.issuer, delivered := false })

/-- The copy that goes next on a timeline, once it has issued: the one after those that have completed (R232). -/
def headCopy (s : State) (tl : Nat) : Option Copy :=
  s.u.copies.find? (fun c => c.tl == tl && c.num == s.u.tl.toList.getD tl 0 + 1)

/-- A copy has completed: its timeline reaches its number (R232). -/
def finishCopy (s : State) (c : Copy) : State :=
  if h : c.tl < 15 then
    { s with u := { s.u with tl := s.u.tl.set c.tl c.num h,
                             copies := s.u.copies.filter (fun r => !(r.tl == c.tl && r.num == c.num)) } }
  else s

/-- CPSTATn (R233). -/
def cpstatWord (s : State) (n : Nat) : W64 :=
  match getCsusp s n with
  | none => 0
  | some x =>
    BitVec.ofNat 64 (2 ^ 63 + x.sub % 64 * 2 ^ 57 + (headCopy s n).elim 0 Copy.done)

/-- Writing 1 to CPSTATn.SUSP: the stopped copy resumes at element DONE (R233). -/
def resumeCopy (s : State) (n : Nat) : State :=
  match getCsusp s n, headCopy s n with
  | some _, some c => runCopy (setCsusp s n none) c
  | _, _ => s

/-! ### copy (R232) -/

/-- Shape fault: the reason above the record's address (R229). -/
def shapeFault (reason : Nat) (va : W64) (s : State) : Res :=
  faultR 0x0C (BitVec.ofNat 64 (reason * 2 ^ 56 + bitsAt va.toNat 0 56)) s

/-- COPY (R232). -/
def execCopy (f : Form) (s : State) : Host.Outcome State Fault Refusal :=
  runForm 0xC9 f s (fun s => afterEpoch s (fun s =>
    let va := getX s f.a
    let vb := getX s f.b
    if va.toNat % 64 ≠ 0 then faultR 0x06 va s
    else if vb.toNat % 64 ≠ 0 then faultR 0x06 vb s
    else
      match readRecord s va.toNat 64 with
      | .error c => .faultR c s
      | .ok (db, s1) =>
        match readRecord s1 vb.toNat 64 with
        | .error c => .faultR c s1
        | .ok (sb, s2) =>
          let dst := tensorOf db
          let src := tensorOf sb
          match src.reason true, dst.reason false with
          | some r, _ => shapeFault r vb s2
          | none, some r => shapeFault r va s2
          | none, none =>
            if shapesDiffer dst src then shapeFault 5 va s2
            else if hullsMeet dst src ∧ !sameShape dst src then faultR 0x0D va s2
            else .done (nextPc (addCmd s2 (.copy f.d.toNat db sb f.cls.toNat)))))

end Sys2Proof.Machine
end

