-- ==== Sys2Proof/Machine/Tile.lean ====
section
/-! DEFINITION. The tile range 0xA0 to 0xB0: what the MCC thread does at issue (R161 to R165, R173, R174, R178, R188 to
R200). -/

namespace Sys2Proof.Machine

open Sys2Proof

/-! ### Grants and modes (R169) -/

/-- tgrant from its fields. -/
def tgrantWord (klast : Bool) (gk gn gm : Nat) : W64 :=
  BitVec.ofNat 64 (gm + gn * 2 ^ 8 + gk * 2 ^ 16 + (if klast then 2 ^ 27 else 0))

def grantM (s : State) : Nat := bitsAt s.t.arch.tgrant.toNat 0 8
def grantN (s : State) : Nat := bitsAt s.t.arch.tgrant.toNat 8 8
def grantK (s : State) : Nat := bitsAt s.t.arch.tgrant.toNat 16 11
def grantLast (s : State) : Bool := bitsAt s.t.arch.tgrant.toNat 27 1 == 1

/-- tmode.RCAP and tmode.POLICY. -/
def rankCap (s : State) : Nat := bitsAt s.t.tmode.toNat 8 7
def rankPolicy (s : State) : Nat := bitsAt s.t.tmode.toNat 0 2

/-- What recompression reads of the control registers. -/
def truncMode (s : State) : TruncMode :=
  { sweeps := s.t.tsweep, ttol := s.t.ttol.toNat, tabs := bitsAt s.t.tmode.toNat 2 1 == 1 }

/-- STL (R189): the grants are computed before any register is written. -/
def execStl (f : Form) (s : State) : Host.Outcome State Fault Refusal :=
  runForm 0xA0 f s (fun s =>
    let s1 := commit s
    let cap := match f.mod.toNat % 4 with | 2 => 512 | 3 => 1024 | _ => 256
    let xk := (getX s f.b).toNat
    let gm := min (getX s f.d).toNat 128
    let gn := min (getX s f.a).toNat 128
    let gk := min xk cap
    let s2 := setX (setX (setX s1 f.d (BitVec.ofNat 64 gm)) f.a (BitVec.ofNat 64 gn)) f.b (BitVec.ofNat 64 gk)
    let s3 := nextPc (withArch s2 { s2.t.arch with tgrant := tgrantWord (decide (xk ≤ cap)) gk gn gm })
    let s4 := withArch s3 { s3.t.arch with stripSeq := (s3.t.arch.stripSeq + 1) % 2 ^ 64, ordinal := 0 }
    .done (openStrip s4 0))

/-! ### Issue (R162, R163, R168, R188) -/

/-- A tile instruction: its strip commits and one opens at it (R162). -/
def tileForm (opc : Nat) (f : Form) (s : State) (body : State → Res) : Host.Outcome State Fault Refusal :=
  runForm opc f s (fun s => body (openStrip (commit s) 1))

/-- An instruction that issues an operation waits while 32 are outstanding (R163), and in a DET launch for the epoch
that its thread has fenced, since it may read memory (R81). -/
def issuing (s : State) (body : State → Res) : Res :=
  if 32 ≤ s.u.tl15Issued - s.u.tl15 then .waiting .tileRoom s else afterEpoch s body

/-- A fault of a tile instruction, kind C. -/
def tileFault (c : Cause) (s : State) : Res := .faultC c s

/-- Tile pool exhausted: NEED keeps F (R168). -/
def tilePoolFault (h : TileHdr) (s : State) : Res :=
  faultC 0x0A (BitVec.ofNat 64 h.gran) { s with t := { s.t with tileNeed := h.gran } }

/-- Rank overflow (R178). -/
def rankFault (r : Nat) (s : State) : Res := faultC 0x0B (BitVec.ofNat 64 r) s

/-- An operation with its registers and what it reads of the state at issue (R204). -/
def newOp (s : State) (opc : Nat) (f : Form) (h : TileHdr) : TileOp :=
  { num := s.u.tl15Issued + 1, opc, td := f.d.toNat, ta := f.a.toNat, tb := f.b.toNat, hdr := h, gm := grantM s,
    gn := grantN s, gk := grantK s, z := f.mod.toNat % 2 == 1, fmt := f.fmt.toNat, cls := f.cls.toNat, descA := [],
    descB := [], val := getX s f.b, rnd := 0, seed := s.t.arch.seed, c0hi := s.t.arch.ordinal,
    stripSeq := s.t.arch.stripSeq, rcap := rankCap s, policy := rankPolicy s,
    tabs := bitsAt s.t.tmode.toNat 2 1 == 1, ttol := s.t.ttol, sweeps := s.t.tsweep, fired := false, row := 0,
    done := false }

/-- The engine becomes a channel's consumer or producer (R183). -/
def claimRole (s : State) (o : Opnd) : State :=
  if o.chan then
    let c := getChan s o.ch
    setChan s o.ch (if o.out then { c with prod := 8 } else { c with cons := 8 })
  else s

/-- The stores that the issue releases have not all performed (R165). -/
def unreleased (t : Thread) : Bool := !t.performing.isEmpty || !t.wcb.isEmpty

/-- An operation takes its number and joins the queue; `hdr` replaces a register's header (R163, R164). -/
def issueOp (s : State) (p : TileOp) (os : List Opnd) (hdr : Option TileHdr) : Res :=
  let s1 := match hdr with
    | some h => setHdr s p.td h
    | none => s
  let s2 := os.foldl claimRole s1
  let s3 := { s2 with u := { s2.u with ops := s2.u.ops ++ [p], tl15Issued := p.num } }
  let s4 := if unreleased s3.t then { s3 with t := { s3.t with performing := s3.t.performing ++ [.tile p.num] } } else s3
  .done (closeDone s4)

/-- The channel checks of an instruction's descriptors, in order (R174 step 4). -/
def chanChecks (s : State) : List Opnd → Option Cause
  | [] => none
  | o :: os =>
    match o.chanCheck s with
    | some c => some c
    | none => chanChecks s os

/-- The result needs granules that the pool has; then the operation issues (R188 step 5). -/
def issueResult (s : State) (p : TileOp) (os : List Opnd) (isSource : Bool) : Res :=
  if tileShort s p.td p.hdr isSource then tilePoolFault p.hdr s else issueOp s p os (some p.hdr)

/-- An operation with one descriptor at X[a]: its checks, then what follows. -/
def withDesc (s : State) (va : W64) (w : Option Nat) (rows cols : Nat) (k : State → List Byte → Opnd → Res) : Res :=
  match readOpnd s va w false rows cols with
  | .error c => tileFault c s
  | .ok (d, o, s1) =>
    match o.chanCheck s1 with
    | some c => tileFault c s1
    | none => k s1 d o

/-- An operation with two descriptors: steps 1 to 3 of each, its own check, then step 4 of each (R174). -/
def withDescs (s : State) (va vb : W64) (w : Option Nat) (isB : Bool) (da db : Nat × Nat) (bad : Opnd → Opnd → Bool)
    (k : State → List Byte → List Byte → Opnd → Opnd → Res) : Res :=
  match readOpnd s va w false da.1 da.2 with
  | .error c => tileFault c s
  | .ok (d1, o1, s1) =>
    match readOpnd s1 vb w isB db.1 db.2 with
    | .error c => tileFault c s1
    | .ok (d2, o2, s2) =>
      if bad o1 o2 then faultC 0x10 0 s2
      else
        match chanChecks s2 [o1, o2] with
        | some c => tileFault c s2
        | none => k s2 d1 d2 o1 o2

/-- TCFG (R190). -/
def execTcfg (f : Form) (s : State) : Host.Outcome State Fault Refusal :=
  tileForm 0xA1 f s (fun s => issuing s (fun s =>
    match hdrOfWord (getX s f.a) with
    | none => faultC 0x10 0 s
    | some h => issueResult s (newOp s 0xA1 f h) [] false))

/-- TZERO (R190): a factored tile becomes rank 0. -/
def execTzero (f : Form) (s : State) : Host.Outcome State Fault Refusal :=
  tileForm 0xA2 f s (fun s => issuing s (fun s =>
    issueResult s (newOp s 0xA2 f { getHdr s f.d.toNat with rank := 0 }) [] false))

/-- TLD (R191). -/
def execTld (f : Form) (s : State) : Host.Outcome State Fault Refusal :=
  tileForm 0xA3 f s (fun s => issuing s (fun s =>
    withDesc s (getX s f.a) none (grantM s) (grantN s) (fun s d o =>
      let p := { newOp s 0xA3 f (denseHdr (grantM s) (grantN s) o.isInt) with descA := d }
      if p.still then issueOp s p [o] none else issueResult s p [o] false)))

/-- TLDF (R192, R178). The second descriptor stands 32 bytes above the first. A rank above the cap is reported of an
operation of size zero too (log entry 17). -/
def execTldf (f : Form) (s : State) : Host.Outcome State Fault Refusal :=
  tileForm 0xA4 f s (fun s => issuing s (fun s =>
    let r := (getX s f.b).toNat
    let gm := grantM s
    let gn := grantN s
    let td := getHdr s f.d.toNat
    let ft := if f.fmt ≠ 0 then f.fmt.toNat else if td.kind = 2 then td.ftype else 2
    if 64 < r then faultC 0x10 0 s
    else
      withDescs s (getX s f.a) (getX s f.a + 32) none false (gm, r) (gn, r) (fun _ _ => false) (fun s d1 d2 o1 o2 =>
        let above := decide (rankCap s < r)
        let h := if above then denseHdr gm gn false else factorHdr gm gn ft r
        let p := { newOp s 0xA4 f h with descA := d1, descB := d2, fmt := ft }
        if above ∧ rankPolicy s ≠ 1 then rankFault r s
        else if p.still then issueOp s p [o1, o2] none
        else issueResult s p [o1, o2] false)))

/-- TST (R193). -/
def execTst (f : Form) (s : State) : Host.Outcome State Fault Refusal :=
  tileForm 0xA5 f s (fun s => issuing s (fun s =>
    let h := getHdr s f.d.toNat
    if h.kind ≠ 1 then faultC 0x10 0 s
    else withDesc s (getX s f.a) (some 64) h.m h.n (fun s d o =>
      issueOp s { newOp s 0xA5 f h with descA := d } [o] none)))

/-- TSTF (R193). -/
def execTstf (f : Form) (s : State) : Host.Outcome State Fault Refusal :=
  tileForm 0xA6 f s (fun s => issuing s (fun s =>
    let h := getHdr s f.d.toNat
    if h.kind ≠ 2 then faultC 0x10 0 s
    else
      withDescs s (getX s f.a) (getX s f.a + 32) (some (outWidth f.fmt.toNat h.ftype)) false (h.m, h.rank) (h.n, h.rank)
        (fun _ _ => false) (fun s d1 d2 o1 o2 =>
          issueOp s { newOp s 0xA6 f h with descA := d1, descB := d2 } [o1, o2] none)))

/-- The rules of R173 that a `tmm` breaks. -/
def tmmBad (s : State) (a b : Opnd) : Bool :=
  let wide := max a.width b.width
  let cap := if 16 ≤ wide then 256 else if 6 ≤ wide then 512 else 1024
  let gk := grantK s
  (a.grouped && b.grouped) || decide (cap < gk)
  || (!grantLast s && (gk % 32 != 0 || (a.grouped && gk % a.block != 0) || (b.grouped && gk % b.block != 0)))

/-- TMM (R194, R173, R181). The accumulator that it reads makes td no source (R168). DEDUCED (log entry 17): an accumulator of
the other path, which the descriptors name, is reported with the checks of R173, after steps 1 to 3 of both descriptors. -/
def execTmm (f : Form) (s : State) : Host.Outcome State Fault Refusal :=
  tileForm 0xA7 f s (fun s => issuing s (fun s =>
    let gm := grantM s
    let gn := grantN s
    let gk := grantK s
    let z := f.mod.toNat % 2 == 1
    let td := getHdr s f.d.toNat
    if td.kind = 2 ∨ (td.kind = 1 ∧ !z ∧ (td.m ≠ gm ∨ td.n ≠ gn)) then faultC 0x10 0 s
    else
      withDescs s (getX s f.a) (getX s f.b) none true (gm, gk) (gk, gn)
        (fun a b => tmmBad s a b || (td.kind == 1 && !z && td.int64 != (a.isInt && b.isInt)))
        (fun s d1 d2 o1 o2 =>
          let h := denseHdr gm gn (o1.isInt && o2.isInt)
          let p := { newOp s 0xA7 f h with descA := d1, descB := d2 }
          if p.still then
            if !z then issueOp s p [o1, o2] none
            else issueResult s { p with hdr := if gm = 0 ∨ gn = 0 then .empty else h } [o1, o2] false
          else issueResult s p [o1, o2] false)))

/-- A synchronous operation takes the next number and completes at once (R164). -/
def syncDone (s : State) (td : Nat) (b : TileBody) : Res :=
  let n := s.u.tl15Issued + 1
  let s1 := setTile (setHdr s td b.hdr) td b
  .done (closeDone { s1 with u := { s1.u with tl15Issued := n, tl15 := n } })

/-- The Engine fault that a suspension raises again (R176). -/
def suspendCause (x : Suspend) : Cause := { code := 0x12, sub := x.sub, tval := x.tval, telem := x.telem }

/-- A synchronous operation: every earlier one completes first (R164), and every prior store of the thread has performed, which
the issue releases (R165); a suspended context raises its fault (R176). -/
def synchronous (s : State) (body : State → Res) : Res :=
  match s.u.tsusp with
  | some x => .faultA (suspendCause x) s
  | none =>
    if s.u.tl15 < s.u.tl15Issued then .waiting (.timeline 15 s.u.tl15Issued) s
    else if unreleased s.t then .waiting .performed s
    else body s

/-- A synchronous result: its granules, then its write (R168). -/
def syncResult (s : State) (td : Nat) (b : TileBody) (isSource : Bool) : Res :=
  if tileShort s td b.hdr isSource then tilePoolFault b.hdr s else syncDone s td b

/-- Factors by rows as FP64 codes, exactly. -/
def toFp64Rows (ft : Nat) (m : List (List Nat)) : List (List Nat) :=
  m.map (fun r => r.map (fun c => rnd64 ((factorFmt ft).decode c)))

/-- R179 on factors of a type. -/
def recompressTile (s : State) (m n ft : Nat) (x : Factors) : TileBody :=
  factorTile m n ft (recompress (factorFmt ft) (toFp64Rows ft x.u) (toFp64Rows ft x.v) x.rank (truncMode s))

/-- The rank rules of `tlmm` and `tadd` on a factored result (R178): policy 0 refuses a rank above RCAP, 1 writes it
dense, 2 recompresses it synchronously. -/
def rankedResult (s : State) (opc : Nat) (f : Form) (m n ft r : Nat) (factors : State → Factors) : Res :=
  let isSource := f.d == f.a || f.d == f.b
  if r ≤ rankCap s then issueResult s (newOp s opc f (factorHdr m n ft r)) [] isSource
  else if rankPolicy s = 0 then rankFault r s
  else if rankPolicy s = 1 then issueResult s (newOp s opc f (denseHdr m n false)) [] isSource
  else
    synchronous s (fun s =>
      let b := recompressTile s m n ft (factors s)
      if rankCap s < b.hdr.rank then rankFault b.hdr.rank s else syncResult s f.d.toNat b isSource)

/-- TLMM (R195). -/
def execTlmm (f : Form) (s : State) : Host.Outcome State Fault Refusal :=
  tileForm 0xA8 f s (fun s => issuing s (fun s =>
    let a := getHdr s f.a.toNat
    let b := getHdr s f.b.toNat
    if a.kind ≠ 2 ∨ b.kind ≠ 2 ∨ a.n ≠ b.m then faultC 0x10 0 s
    else rankedResult s 0xA8 f a.m b.n (widerType a.ftype b.ftype) (min a.rank b.rank)
      (fun s => lowRankFactors (getTile s f.a.toNat) (getTile s f.b.toNat))))

/-- TADD (R196). -/
def execTadd (f : Form) (s : State) : Host.Outcome State Fault Refusal :=
  tileForm 0xA9 f s (fun s => issuing s (fun s =>
    let a := getHdr s f.a.toNat
    let b := getHdr s f.b.toNat
    if a.kind = 0 ∨ a.kind ≠ b.kind ∨ a.m ≠ b.m ∨ a.n ≠ b.n ∨ (a.kind = 1 ∧ a.int64 ≠ b.int64) then faultC 0x10 0 s
    else if a.kind = 1 then issueResult s (newOp s 0xA9 f a) [] (f.d == f.a || f.d == f.b)
    else rankedResult s 0xA9 f a.m a.n (widerType a.ftype b.ftype) (a.rank + b.rank)
      (fun s => sumFactors (getTile s f.a.toNat) (getTile s f.b.toNat))))

/-- TRECOMP (R197): never Rank overflow. -/
def execTrecomp (f : Form) (s : State) : Host.Outcome State Fault Refusal :=
  tileForm 0xAA f s (fun s =>
    let a := getHdr s f.a.toNat
    if a.kind ≠ 2 then faultC 0x10 0 s
    else synchronous s (fun s =>
      let t := getTile s f.a.toNat
      syncResult s f.d.toNat (recompressTile s a.m a.n a.ftype { u := t.us, v := t.vs, rank := a.rank }) (f.d == f.a)))

/-- TDENSE (R197). -/
def execTdense (f : Form) (s : State) : Host.Outcome State Fault Refusal :=
  tileForm 0xAB f s (fun s => issuing s (fun s =>
    let a := getHdr s f.a.toNat
    if a.kind = 0 then faultC 0x10 0 s
    else issueResult s (newOp s 0xAB f (denseHdr a.m a.n (a.kind == 1 && a.int64))) [] (f.d == f.a)))

/-- TCOMP (R197, R180, R178). -/
def execTcomp (f : Form) (s : State) : Host.Outcome State Fault Refusal :=
  tileForm 0xAC f s (fun s =>
    let a := getHdr s f.a.toNat
    let ft := (getX s f.b).toNat
    if a.kind ≠ 1 ∨ ft = 0 ∨ 3 < ft then faultC 0x10 0 s
    else synchronous s (fun s =>
      let t := getTile s f.a.toNat
      let acc := t.acc.map (fun c => rnd64 (accValue a c))
      let x := compress (factorFmt ft) a.m a.n (rowsOf a.n a.m acc) (truncMode s)
      if rankCap s < x.rank then
        if rankPolicy s = 1 then syncResult s f.d.toNat t (f.d == f.a) else rankFault x.rank s
      else syncResult s f.d.toNat (factorTile a.m a.n ft x) (f.d == f.a)))

/-- TSCALE (R198). -/
def execTscale (f : Form) (s : State) : Host.Outcome State Fault Refusal :=
  tileForm 0xAD f s (fun s => issuing s (fun s =>
    let a := getHdr s f.a.toNat
    if a.kind = 0 ∨ (a.kind = 1 ∧ a.int64) then faultC 0x10 0 s
    else issueResult s (newOp s 0xAD f a) [] (f.d == f.a)))

/-- TCVT (R199). Under RSR the rounding counts (R65). -/
def execTcvt (f : Form) (s : State) : Host.Outcome State Fault Refusal :=
  tileForm 0xAE f s (fun s => issuing s (fun s =>
    let h := getHdr s f.d.toNat
    let x := (getX s f.b).toNat
    let mode := bitsAt x 32 3
    if h.kind ≠ 1 ∨ bitsAt x 35 29 ≠ 0 ∨ 5 < mode then faultC 0x10 0 s
    else withDesc s (getX s f.a) (some (outWidth f.fmt.toNat (accType h))) h.m h.n (fun s d o =>
      let p := { newOp s 0xAE f h with descA := d, rnd := mode }
      issueOp (countRsr mode s) p [o] none)))

/-- An operation writes its td: not a store, and not one that leaves it unchanged (R181). -/
def TileOp.writes (p : TileOp) : Bool :=
  p.opc != 0xA5 && p.opc != 0xA6 && p.opc != 0xAE && (!p.still || (p.opc == 0xA7 && p.z))

/-- The number of the last issued operation that writes a tile register and has not completed. -/
def lastWriter (s : State) (n : Nat) : Option Nat :=
  ((s.u.ops.filter (fun p => p.td == n && p.writes)).getLast?).map (fun p => p.num)

/-- TRANK (R200, R176). -/
def execTrank (f : Form) (s : State) : Host.Outcome State Fault Refusal :=
  tileForm 0xAF f s (fun s =>
    match s.u.tsusp with
    | some x => .faultA (suspendCause x) s
    | none =>
      match lastWriter s f.a.toNat with
      | some n => .waiting (.timeline 15 n) s
      | none => .done (closeDone (setX s f.d (getHdr s f.a.toNat).word)))

/-- TSYNC (R200, R165, R176). -/
def execTsync (f : Form) (s : State) : Host.Outcome State Fault Refusal :=
  tileForm 0xB0 f s (fun s =>
    match s.u.tsusp with
    | some x => .faultA (suspendCause x) s
    | none =>
      if s.u.tl15 < s.u.tl15Issued then .waiting (.timeline 15 s.u.tl15Issued) s else .done (closeDone (acquire s 2)))

end Sys2Proof.Machine
end

