-- ==== Sys2Proof/Machine/Order.lean ====
section
/-! DEFINITION. Order between a thread's committed effects (R235 to R237), and the AMOs, fences, closes and waits
(R245 to R250). -/

namespace Sys2Proof.Machine

open Sys2Proof

/-! ### Which committed effects must perform first (R235, R236, R237) -/

/-- Two stores write a common byte. -/
def overlaps (a b : Store) : Bool :=
  a.elems.any (fun e => e.any (fun x => b.elems.any (fun g => g.any (fun y => x.loc == y.loc))))

/-- A store performs before a later one of the thread: one class, class 15, a fence between them that covers both
classes, or a common byte. -/
def storeBefore (masks : List Nat) (a b : Store) : Bool :=
  a.cls == b.cls || a.cls == 15 || b.cls == 15
  || masks.any (fun m => bitsAt m a.cls 1 == 1 && bitsAt m b.cls 1 == 1) || overlaps a b

/-- The fences among committed effects. -/
def fenceMasks (ps : List Pending) : List Nat :=
  ps.filterMap (fun p => match p with
    | .fence m => some m
    | .store _ => none
    | .cmd .. => none
    | .slots .. => none
    | .tile _ => none)

/-- A store performs before one of the listed effects that follow it; `masks` are the fences passed. -/
def beforeAny (a : Store) : List Nat → List Pending → Bool
  | _, [] => false
  | ms, .store b :: ps => storeBefore ms a b || beforeAny a ms ps
  | ms, .fence m :: ps => beforeAny a (m :: ms) ps
  | ms, _ :: ps => beforeAny a ms ps

/-- Split committed effects into those that must perform when the stores that `need` selects have to, in order, and
those that may stay. `need` is given the fences that follow the store. -/
def splitNeeded (need : List Nat → Store → Bool) : List Pending → List Pending × List Pending
  | [] => ([], [])
  | p :: ps =>
    let r := splitNeeded need ps
    match p with
    | .store a => if need (fenceMasks ps) a || beforeAny a [] r.1 then (p :: r.1, r.2) else (r.1, p :: r.2)
    | .fence _ => (p :: r.1, p :: r.2)
    | .cmd .. => (r.1, p :: r.2)
    | .slots .. => (r.1, p :: r.2)
    | .tile _ => (r.1, p :: r.2)

/-- Perform the selected stores of the current thread and every store that goes before one of them. -/
def performNeeded (need : List Nat → Store → Bool) (s : State) : State :=
  let r := splitNeeded need s.t.performing
  r.1.foldl performPending { s with t := { s.t with performing := r.2 } }

/-! ### Atomic memory operations (R245, R246) -/

/-- The order and the scope of an instruction's MOD (R28): 1 acquire, 2 release. -/
def orderOf (f : Form) : Nat := f.mod.toNat / 8
def scopeOf (f : Form) : Nat := f.mod.toNat % 8

/-- The AMO's new value for the register operands. -/
def amoValue (op : AmoOp) (f : Form) (s : State) (old : Nat) : Nat :=
  let w := 8 * scalarBytes f
  amoNew op w f.fmt.toNat old ((getX s f.b).toNat % 2 ^ w) ((getX s f.d).toNat % 2 ^ w)

/-- The end of an AMO: X[d], the acquire, and the next strip. -/
def amoEnd (f : Form) (old : Nat) (s : State) : Res :=
  let s1 := setX s f.d (extendLoaded f old)
  .done (closeDone (if orderOf f = 1 then acquire s1 (scopeOf f) else s1))

/-- A store performs before an AMO of a class that follows it at some locations: one with a release, one of the store's
class, class 15, a fence between them that covers both classes, or a common byte (R236, R247). -/
def beforeAmo (release : Bool) (cls : Nat) (locs masks : List Nat) (st : Store) : Bool :=
  release || storeBefore masks st { cls, elems := [], full := [], pins := [] }
  || st.elems.any (fun e => e.any (fun w => locs.contains w.loc))

/-- An AMO at translated locations, outside a DET launch: the stores that go before it perform, then it reads and writes
at once (R245, R246). -/
def amoDirect (op : AmoOp) (f : Form) (addr : Nat) (locs : List Nat) (s : State) : Res :=
  let s1 := performNeeded (beforeAmo (orderOf f == 2) f.cls.toNat locs) s
  match engineError s1 addr locs with
  | some e => memFaultC e s
  | none =>
    let old := leValue (locs.map (rawByte s1))
    let new := amoValue op f s1 old
    let s2 := withArch s1 (dropWritten s1.t.arch locs)
    amoEnd f old (performBytes s2 (storeBytes (locs.headD 0) (scalarBytes f) new))

/-- An AMO in a DET launch: it returns the thread's own view, and applies at the end of its epoch (R82). -/
def amoDeferred (op : AmoOp) (f : Form) (addr : Nat) (locs : List Nat) (s : State) : Res :=
  let s1 := drain s
  match dataError s1 addr locs with
  | some e => memFaultC e s
  | none =>
    let s2 := loadLines locs s1
    let old := viewValue s2 locs
    let w := 8 * scalarBytes f
    let item : DetItem := .amo op (locs.headD 0) w f.fmt.toNat ((getX s2 f.b).toNat % 2 ^ w)
      ((getX s2 f.d).toNat % 2 ^ w) (pinsOf (threadSpace s2) [addr] s2)
    amoEnd f old (bufferDet (withArch s2 (dropWritten s2.t.arch locs)) item)

/-- An AMO (R246). -/
def amoForm (op : AmoOp) (opc : Nat) (f : Form) (s : State) : Host.Outcome State Fault Refusal :=
  runForm opc f s (fun s => afterEpoch (openStrip (commit s) 1) (fun s =>
    let n := scalarBytes f
    let addr := getX s f.a
    if addr.toNat % n ≠ 0 then faultC 0x06 addr s
    else
      match translateElem s (threadSpace s) .amo addr.toNat n with
      | .error e => memFaultC e s
      | .ok (locs, s1) => if isDet s1 then amoDeferred op f addr.toNat locs s1 else amoDirect op f addr.toNat locs s1))

/-- AMOADD (R246). -/
def execAmoadd (f : Form) (s : State) : Host.Outcome State Fault Refusal := amoForm .add 0xCD f s
/-- AMOFADD (R246). -/
def execAmofadd (f : Form) (s : State) : Host.Outcome State Fault Refusal := amoForm .fadd 0xCE f s
/-- AMOMAX (R246). -/
def execAmomax (f : Form) (s : State) : Host.Outcome State Fault Refusal := amoForm .max 0xCF f s
/-- AMOMIN (R246). -/
def execAmomin (f : Form) (s : State) : Host.Outcome State Fault Refusal := amoForm .min 0xD0 f s
/-- AMOAND (R246). -/
def execAmoand (f : Form) (s : State) : Host.Outcome State Fault Refusal := amoForm .and 0xD1 f s
/-- AMOOR (R246). -/
def execAmoor (f : Form) (s : State) : Host.Outcome State Fault Refusal := amoForm .or 0xD2 f s
/-- AMOSWAP (R246). -/
def execAmoswap (f : Form) (s : State) : Host.Outcome State Fault Refusal := amoForm .swap 0xD3 f s
/-- AMOCAS (R246). -/
def execAmocas (f : Form) (s : State) : Host.Outcome State Fault Refusal := amoForm .cas 0xD4 f s
/-- AMOFMAX (R246). -/
def execAmofmax (f : Form) (s : State) : Host.Outcome State Fault Refusal := amoForm .fmax 0xD5 f s

/-! ### fence and stend (R247, R248) -/

/-- The classes that a fence covers. -/
def fenceMask (x : W64) : Nat := if bitsAt x.toNat 0 16 = 0 then 0xFFFF else bitsAt x.toNat 0 16

/-- The release part of a fence takes its place in the strip's drain. A release at thread scope orders for no other
agent (R234). -/
def fenceRelease (f : Form) (m : Nat) (s : State) : State :=
  if orderOf f ≠ 1 ∧ scopeOf f ≠ 0 then
    { s with t := { s.t with strip := { s.t.strip with items := s.t.strip.items ++ [.fence m] } } }
  else s

/-- The acquire part of a fence. -/
def fenceAcquire (f : Form) (s : State) : State := if orderOf f ≠ 2 then acquire s (scopeOf f) else s

/-- An epoch fence closes the strip; the stores of the ending epoch stand in the write-combining buffer, and the fence
ends the thread's epoch. Nothing read ahead outlives it, since later loads return the state that the epoch leaves (R81). -/
def epochFence (f : Form) (s : State) : Res :=
  let s1 := commit s
  if bitsAt (getX s f.a).toNat 16 48 ≠ 0 then faultC 0x10 0 s1
  else
    let s2 := fenceAcquire f (drain s1)
    .done (closeDone { s2 with t := { s2.t with arch := dropAhead s2.t.arch, epoch := s2.t.epoch + 1 } })

/-- FENCE (R247). -/
def execFence (f : Form) (s : State) : Host.Outcome State Fault Refusal :=
  runForm 0xD6 f s (fun s =>
    if isDet s ∧ 4 ≤ scopeOf f then epochFence f s
    else if bitsAt (getX s f.a).toNat 16 48 ≠ 0 then faultR 0x10 0 s
    else .done (nextPc (fenceAcquire f (fenceRelease f (fenceMask (getX s f.a)) s))))

/-- Every store and engine command of the thread has performed or issued (R248): none has committed and waits, nor stands
in the buffer of a DET launch for the end of its epoch (log entry 8). -/
def allPerformed (t : Thread) : Bool := t.performing.isEmpty && t.wcb.isEmpty

/-- STEND (R248): with an order it waits in a DET launch for the ends of the epochs of the thread's stores (R81). -/
def execStend (f : Form) (s : State) : Host.Outcome State Fault Refusal :=
  runForm 0xDA f s (fun s =>
    let s1 := commit s
    if orderOf f = 0 then .done (closeDone s1)
    else
      let s2 := drain s1
      if allPerformed s2.t then .done (closeDone (if orderOf f = 1 then acquire s2 (scopeOf f) else s2))
      else .waiting .performed (openStrip s2 1))

/-! ### waitc (R249) -/

/-- Store instructions that the open strip holds, and those that have committed and not performed, with those that stand in
the buffer of a DET launch. -/
def openStores (t : Thread) : Nat :=
  (t.strip.items.filter (fun i => match i with | .store _ => true | .fence _ => false)).length
def performingStores (t : Thread) : Nat :=
  (t.performing.filter (fun p => match p with | .store _ => true | _ => false)).length
  + (t.wcb.filter (fun p => match p.2 with | .store _ => true | _ => false)).length

/-- A command is a copy. -/
def Cmd.isCopy (c : Cmd) : Bool :=
  match c with
  | .copy .. => true
  | .coll .. => false
  | .xsend .. => false

/-- Copies of the thread that its open strip buffers, and those that have committed or issued and not completed. -/
def openCopies (t : Thread) : Nat := (t.strip.cmds.filter Cmd.isCopy).length
def runningCopies (s : State) : Nat :=
  (s.t.performing.filter (fun p => match p with | .cmd _ c => c.isCopy | _ => false)).length
  + (s.t.wcb.filter (fun p => match p.2 with | .cmd _ c => c.isCopy | _ => false)).length
  + (s.u.copies.filter (fun c => c.issuer == s.t.slot)).length

/-- Tile operations of the MCC thread issued and not complete; none of a vector thread. -/
def openTileOps (s : State) : Nat := if s.t.slot = 8 then s.u.tl15Issued - s.u.tl15 else 0

/-- The 21-bit constant of WAITC and BRKPT in d:a:b. -/
def packedConst (f : Form) : Nat := f.d.toNat * 2 ^ 14 + f.a.toNat * 2 ^ 7 + f.b.toNat

/-- WAITC (R249). Loads have performed when they execute. -/
def execWaitc (f : Form) (s : State) : Host.Outcome State Fault Refusal :=
  runForm 0xD7 f s (fun s =>
    let v := packedConst f
    let ns := bitsAt v 4 4
    let nc := bitsAt v 8 4
    let nt := bitsAt v 12 4
    let s1 :=
      if openStores s.t + performingStores s.t > ns ∨ openCopies s.t + runningCopies s > nc then
        openStrip (commit s) 1
      else s
    if openStores s1.t + performingStores s1.t ≤ ns ∧ openCopies s1.t + runningCopies s1 ≤ nc ∧ openTileOps s1 ≤ nt then
      .done (nextPc (if orderOf f = 1 then acquire s1 (scopeOf f) else s1))
    else .waiting (.outstanding (bitsAt v 0 4) ns nc nt) (openStrip (commit s1) 1))

/-! ### tlwait and tlread (R250) -/

/-- TL[N] by its code: 0 to 14 copies, 15 the matrix engine, 16 to 23 the job's gl0 to gl7 on this die. -/
def timelineValue (s : State) (code : Nat) : Nat :=
  if h : code < 15 then s.u.tl[code]
  else if code = 15 then s.u.tl15
  else glAt (myJob s) (myDie s) (code - 16)

/-- The suspension of the engine context that a timeline belongs to (R176, R233, R303). -/
def suspendedOn (s : State) (code : Nat) : Option Suspend :=
  if code < 15 then getCsusp s code
  else if code = 15 then s.u.tsusp
  else if h : code - 16 < 8 then s.u.gsusp[code - 16] else none

/-- TLWAIT (R250, R176, R233): on a suspended context it raises the Engine fault again, whatever the timeline's value, but
for a wait for 0, which returns at once. -/
def execTlwait (f : Form) (s : State) : Host.Outcome State Fault Refusal :=
  runForm 0xD8 f s (fun s =>
    let n := f.d.toNat
    let v := (getX s f.a).toNat
    match (if v = 0 then none else suspendedOn s n) with
    | some x => .faultA (suspendCause x) s
    | none =>
      if timelineValue s n < v then .waiting (.timeline n v) (openStrip (commit s) 1)
      else .done (nextPc (acquire s (if 16 ≤ n then 5 else scopeOf f))))

/-- TLREAD (R250). -/
def execTlread (f : Form) (s : State) : Host.Outcome State Fault Refusal :=
  runForm 0xD9 f s (fun s => writeX f (BitVec.ofNat 64 (timelineValue s f.a.toNat)) s)

end Sys2Proof.Machine
end

