-- ==== Sys2Proof/Machine/Units.lean ====
section
/-! DEFINITION. Units and their launches: counters and handles, the launch record, acceptance, completion, cancellation,
lane shares and barriers (R254 to R273, R283, R290, R291, R331, R333). -/

namespace Sys2Proof.Machine

open Sys2Proof

/-! ### Acting on another thread or unit -/

/-- Make a thread the current one again; its unit alone where the thread is gone, and none where the unit is gone. -/
def refocus (cur : Tid) (s : State) : State :=
  match focus cur s with
  | some s1 => s1
  | none =>
    match focusUnit cur.uid s with
    | some s1 => s1
    | none => park s

/-- Apply a change with a thread as the current one. -/
def onThread (i : Tid) (f : State → State) (s : State) : State :=
  match focus i s with
  | some s1 => refocus (here s) (f s1)
  | none => s

/-- Apply a change with a unit as the current one. -/
def onUnit (uid : Nat) (f : State → State) (s : State) : State :=
  match focusUnit uid s with
  | some s1 => refocus (here s) (f s1)
  | none => s

/-- A unit of the device by its number. -/
def unitAt (s : State) (uid : Nat) : Option UnitCtx := (allUnits s).find? (fun u => u.uid == uid)

/-! ### Handles and status words (R256, R258) -/

/-- LEVEL, GEN and number of a valid handle. -/
def parseHandle (h : Nat) : Option (Nat × Nat × Nat) :=
  let level := bitsAt h 28 36
  let gen := bitsAt h 12 16
  let num := bitsAt h 0 12
  if level = 1 then some (1, gen, num)
  else if level = 2 ∧ gen = 0 then some (2, 0, num)
  else if level = 3 ∧ gen = 0 ∧ num < 256 then some (3, 0, num)
  else if level = 4 ∧ gen = 0 ∧ num = 0 then some (4, 0, 0)
  else none

/-- A launch handle. -/
def handleOf (entry gen : Nat) : Nat := 2 ^ 28 + gen % 2 ^ 16 * 2 ^ 12 + entry

/-- A status word (R258). DESIGN CHOICE: a count that its 28 bits do not hold reads modulo 2^28, for a dependence wait too
(R260; log entry 10). -/
def statusWord (done canc fault : Bool) (out comp : Nat) : W64 :=
  BitVec.ofNat 64 ((if done then 2 ^ 63 else 0) + (if canc then 2 ^ 62 else 0) + (if fault then 2 ^ 61 else 0)
    + out % 2 ^ 28 * 2 ^ 28 + comp % 2 ^ 28)

/-- A counter of a graph or phase; one that no launch has named is all zero. -/
def getCounter : List Counter → Nat → Counter
  | [], n => { num := n, outstanding := 0, completed := 0, canc := false, fault := false }
  | c :: cs, n => if c.num = n then c else getCounter cs n

/-- Replace a counter, in rising order. -/
def setCounter (c : Counter) : List Counter → List Counter
  | [] => [c]
  | r :: rs => if c.num < r.num then c :: r :: rs else if c.num = r.num then c :: rs else r :: setCounter c rs

/-- The launch of a job that a launch handle names. -/
def launchOf (p : PartState) (job entry gen : Nat) : Option Launch :=
  match findLaunch p entry gen with
  | some l => if l.job = job then some l else none
  | none => none

/-- A graph's or phase's word: DONE while nothing is outstanding. -/
def counterWord (c : Counter) (above : Bool) : W64 :=
  statusWord (c.outstanding == 0) (c.canc || above) c.fault c.outstanding c.completed

/-- The status word that a handle of a job reads (R256, R258). -/
def handleWord (p : PartState) (job h : Nat) : W64 :=
  let j := getJob p job
  match parseHandle h with
  | some (1, gen, num) =>
    match launchOf p job num gen with
    | some l => statusWord false l.canc l.fault l.outstanding l.completed
    | none => statusWord true false false 0 0
  | some (2, _, num) => counterWord (getCounter j.graphs num) j.canc
  | some (3, _, num) => counterWord (getCounter j.phases num) j.canc
  | some (_, _, _) => statusWord j.complete j.canc j.fault j.outstanding j.completed
  | none => 0

/-- DONE of a handle. -/
def handleDone (p : PartState) (job h : Nat) : Bool := (handleWord p job h).getLsbD 63

/-! ### The launch record (R260, R263) -/

def recEntry (r : List Byte) : Nat := fieldAt r 0 8
def recDict (r : List Byte) : Nat := fieldAt r 8 8
def recArgs (r : List Byte) : Nat := fieldAt r 16 8
def recSeed (r : List Byte) : Nat := fieldAt r 24 8
def recUnits (r : List Byte) : Nat := fieldAt r 32 4
def recThreads (r : List Byte) : Nat := fieldAt r 36 1
def recLanes (r : List Byte) : Nat := fieldAt r 37 1
def recVregs (r : List Byte) : Nat := fieldAt r 38 1
def recPrio (r : List Byte) : Nat := fieldAt r 39 1
def recGraph (r : List Byte) : Nat := fieldAt r 40 2
def recPhase (r : List Byte) : Nat := fieldAt r 42 1
def recFlags (r : List Byte) : Nat := fieldAt r 43 1
def recCores (r : List Byte) : Bool := bitsAt (recFlags r) 1 1 == 1
def recNbp (r : List Byte) : Bool := bitsAt (recFlags r) 2 1 == 1
def recMcc (r : List Byte) : Bool := bitsAt (recFlags r) 3 1 == 1
def recMccOff (r : List Byte) : Nat := fieldAt r 44 4
def recCspImg (r : List Byte) : Nat := fieldAt r 112 8
def recCspLen (r : List Byte) : Nat := fieldAt r 120 4

/-- Dependence wait `n`: KIND, ID and VALUE. -/
def recWait (r : List Byte) (n : Nat) : Nat × Nat × Nat :=
  (fieldAt r (60 + 16 * n) 1, fieldAt r (56 + 16 * n) 4, fieldAt r (48 + 16 * n) 8)

/-- A wait outside its limits. -/
def waitBad (r : List Byte) (n : Nat) : Bool :=
  let w := recWait r n
  decide (3 ≤ w.1) || (w.1 == 0 && (w.2.1 != 0 || w.2.2 != 0)) || (w.1 == 2 && decide (23 < w.2.1))
  || !zeroAt r (61 + 16 * n) 3

/-- Reason 1. -/
def recordBad (r : List Byte) : Bool :=
  recEntry r % 4 != 0 || recDict r % 2048 != 0 || recUnits r == 0 || decide (2 ^ 20 < recUnits r)
  || decide (8 < recThreads r) || (recThreads r == 0 && !recMcc r) || recLanes r == 0 || decide (8 < recLanes r)
  || !([8, 16, 32, 64].contains (recVregs r)) || decide (11 < recPrio r) || decide (4095 < recGraph r)
  || decide (15 < recFlags r) || recMccOff r % 4 != 0 || (recMccOff r != 0 && !recMcc r)
  || (List.range 4).any (waitBad r) || recCspImg r % 64 != 0 || recCspLen r % 64 != 0
  || decide (0x200000 < recCspLen r) || (recCspLen r != 0 && recCspImg r == 0) || !zeroAt r 124 4

/-- The clusters of a partition, die × 32 + cluster. -/
def clustersOf (s : State) (part : Nat) : List Nat :=
  (diesOf s.config part).flatMap (fun d => (List.range 32).map (fun c => 32 * d + c))

/-- A cluster can address a number of CSP bytes (R262). -/
def cspHolds (s : State) (cluster n : Nat) : Bool := decide (n ≤ 0x200000 - cacheBytes s cluster)

/-- QUOTA, VALID, MREQ, CORESOK, DEPTH and CEIL of a job (R315). -/
def Job.quota (j : Job) : Nat := bitsAt j.par.toNat 16 13
def Job.valid (j : Job) : Bool := bitsAt j.par.toNat 11 1 == 1
def Job.mreq (j : Job) : Bool := bitsAt j.par.toNat 10 1 == 1
def Job.coresOk (j : Job) : Bool := bitsAt j.par.toNat 9 1 == 1
def Job.depthLimit (j : Job) : Nat := bitsAt j.par.toNat 4 5
def Job.ceil (j : Job) : Nat := bitsAt j.par.toNat 0 4

/-- Reason 2: the unit cannot be placed in the partition. -/
def recordUnplaceable (s : State) (part job : Nat) (r : List Byte) : Bool :=
  let cs := clustersOf s part
  (decide (4 < recLanes r) && decide (4 < recThreads r))
  || (recCores r && (decide (cs.length < recUnits r) || !(getJob (getPart s part) job).coresOk))
  || !(cs.any (fun c => cspHolds s c (recCspLen r)))

/-- Reason 5: an invalid handle, or a timeline in a record that has no launching cluster. -/
def recordWaitsBad (r : List Byte) (hasCluster : Bool) : Bool :=
  (List.range 4).any (fun n =>
    let w := recWait r n
    (w.1 == 1 && (parseHandle w.2.1).isNone) || (w.1 == 2 && !hasCluster))

/-- The first of reasons 1, 2 and 5 that a record meets; `place` says whether reason 2 is checked here. -/
def recordReason (s : State) (part job : Nat) (r : List Byte) (place hasCluster : Bool) : Option Nat :=
  if recordBad r then some 1
  else if place && recordUnplaceable s part job r then some 2
  else if recordWaitsBad r hasCluster then some 5 else none

/-! ### Lane shares (R272, R290) -/

/-- Shares of two contexts by their demands, the lower slot's first (R272). -/
def sharesOf (d0 d1 : Nat) : Nat × Nat :=
  if d0 + d1 ≤ 64 then (d0, d1)
  else
    let a := min d0 32
    let b := min d1 32
    let rest := 64 - a - b
    if d1 ≤ d0 then (min d0 (a + rest), b) else (a, min d1 (b + rest))

/-- PEND set at a time (R273, R290). DEDUCED: a recomputation that leaves PEND at the value it has sets nothing anew, so the
deadline that runs for that value goes on (log entry 14). -/
def setPend (t : Thread) (pend time : Nat) : Thread :=
  { t with pend := pend, pendAt := if pend = t.pend then t.pendAt else time }

/-- PEND after a recomputation (R290). -/
def withShare (time : Nat) (t : Thread) (share : Nat) : Thread := setPend t (if share = t.own then 0 else share) time

/-- A context that counts as resident on a core. -/
def onCore (wide : Bool) (core : Nat) (t : Thread) : Bool :=
  t.live && decide (t.slot < 8) && (if wide then t.slot == core else t.slot / 2 == core)

/-- Recompute the shares of a core (R272, R290). A DET context's demand is its LANES × 8, which never shrinks it. -/
def reshareThreads (time : Nat) (wide det : Bool) (lanes core : Nat) (ts : List Thread) : List Thread :=
  let dem (t : Thread) : Nat := if det then lanes else t.dem
  match ts.filter (onCore wide core) with
  | [a] => ts.map (fun t => if t.slot = a.slot then withShare time t (dem a) else t)
  | [a, b] =>
    let sh := sharesOf (dem a) (dem b)
    ts.map (fun t =>
      if t.slot = a.slot then withShare time t sh.1 else if t.slot = b.slot then withShare time t sh.2 else t)
  | _ => ts

/-- Recompute the shares of the core of a slot of the current unit. -/
def reshare (slot : Nat) (s : State) : State :=
  let lanes := recordLanes s
  let wide := decide (32 < lanes)
  let core := if wide then slot else slot / 2
  if slot < 8 then
    mapUnit s.u.uid (fun u => { u with threads := reshareThreads s.time wide (isDet s) lanes core u.threads }) s
  else s

/-! ### The context table (R337) -/

/-- The physical address of a context table entry. -/
def ctxAddr (p : PartState) (i : Nat) : Nat := bitsAt p.ctxtbl.toNat 12 40 * 4096 + 32 * i

/-- The 32 bytes of an entry. -/
def CtxEntry.bytes (e : CtxEntry) : List Byte :=
  leBytes 8 e.frame ++ leBytes 1 e.state ++ leBytes 1 e.kind ++ leBytes 1 e.flags ++ leBytes 1 e.slot
    ++ leBytes 4 e.handle ++ leBytes 4 e.unit ++ leBytes 12 0

/-- An entry of 32 bytes. -/
def ctxEntryOf (b : List Byte) : CtxEntry :=
  { frame := fieldAt b 0 8, state := fieldAt b 8 1, kind := fieldAt b 9 1, flags := fieldAt b 10 1,
    slot := fieldAt b 11 1, handle := fieldAt b 12 4, unit := fieldAt b 16 4 }

/-- Hornbeam writes an entry of the table, in DRAM and in its own copy. -/
def writeCtx (part i : Nat) (e : CtxEntry) (s : State) : State :=
  let p := getPart s part
  let s1 := deviceWrite (ctxAddr p i) e.bytes s
  setPart s1 part { p with ctx := setNth p.ctx i e }

/-- An entry of Hornbeam's copy with its frame, state and flags as DRAM holds them now: the pager changes those (R338). -/
def freshEntry (s : State) (part i : Nat) (e : CtxEntry) : CtxEntry :=
  let a := ctxAddr (getPart s part) i
  if dramOwned s part a then
    let d := ctxEntryOf (Memory.readN s.mem a 32)
    { e with frame := d.frame, state := d.state, flags := d.flags }
  else e

/-- The entries that a test selects, with their indices. -/
def ctxWhere (p : PartState) (test : CtxEntry → Bool) : List (Nat × CtxEntry) :=
  ((List.range p.ctx.length).zip p.ctx).filter (fun e => test e.2)

/-- Change every entry that a test selects, with the frame, state and flags that the pager has left in it (R338). -/
def mapCtx (part : Nat) (test : CtxEntry → Bool) (f : CtxEntry → CtxEntry) (s : State) : State :=
  (ctxWhere (getPart s part) test).foldl (fun s e => writeCtx part e.1 (f (freshEntry s part e.1 e.2)) s) s

/-- The entry belongs to a context of a unit: the unit itself, or a vector thread by its slot. -/
def ownsFrame (u : UnitCtx) (kind slot : Nat) (e : CtxEntry) : Bool :=
  e.state != 0 && e.kind == kind && e.handle == handleOf u.entry u.gen && e.unit == u.index
  && (kind == 2 || e.slot == slot)

/-- A context gives its frame back (R337): STATE 0, with FRAME kept. -/
def freeFrame (u : UnitCtx) (kind slot : Nat) (s : State) : State :=
  mapCtx u.part (ownsFrame u kind slot) (fun e => { e with state := 0 }) s

/-! ### Epochs of a DET launch (R81, R82) -/

/-- One item of a write-combining buffer performs. -/
def performDet (slot : Nat) (s : State) : DetItem → State
  | .store st => performStore s st
  | .amo op loc width ty v ex _ =>
    let n := width / 8
    let old := leValue ((List.range n).map (fun i => rawByte s (loc + i)))
    performBytes s (storeBytes loc n (amoNew op width ty old v ex))
  | .cmd n c => issueCmd s slot n c
  | .slots ch a b => moveSlots s ch a b
  | .tile _ => s

/-- The items that issue at the head of a buffer once no store goes before them. -/
def leadingCmds : List (Nat × DetItem) → List DetItem × List (Nat × DetItem)
  | [] => ([], [])
  | (e, x) :: xs =>
    match x with
    | .cmd .. => let r := leadingCmds xs; (x :: r.1, r.2)
    | .slots .. => let r := leadingCmds xs; (x :: r.1, r.2)
    | .tile _ => let r := leadingCmds xs; (x :: r.1, r.2)
    | .store _ => ([], (e, x) :: xs)
    | .amo .. => ([], (e, x) :: xs)

/-- The current thread's buffer drains up to an epoch, and commands that then stand at its head issue. -/
def drainEpoch (n : Nat) (s : State) : State :=
  let slot := s.t.slot
  let now := s.t.wcb.filter (fun e => decide (e.1 ≤ n))
  let rest := leadingCmds (s.t.wcb.filter (fun e => decide (n < e.1)))
  (now.map (fun e => e.2) ++ rest.1).foldl (performDet slot) { s with t := { s.t with wcb := rest.2 } }

/-- What an item of a complete unit's buffer writes to DRAM; the unit's CSP is gone with it. -/
def DetItem.inDram (x : DetItem) : Option DetItem :=
  match x with
  | .store st => some (.store { st with elems := st.elems.map (fun e => e.filter (fun w => isDram w.loc)) })
  | .amo _ loc _ _ _ _ _ => if isDram loc then some x else none
  | .cmd .. => none
  | .slots .. => none
  | .tile _ => none

/-- Items of a complete unit's buffer perform, beside every unit that is left. -/
def drainLeft (b : List (Nat × DetItem)) (s : State) : State :=
  refocus (here s) ((b.filterMap (fun e => e.2.inDram)).foldl (performDet 16) (park s))

/-- Insert a buffer by its logical thread id. -/
def insertLeft (b : Nat × List (Nat × DetItem)) : List (Nat × List (Nat × DetItem)) → List (Nat × List (Nat × DetItem))
  | [] => [b]
  | r :: rs => if b.1 < r.1 then b :: r :: rs else r :: insertLeft b rs

/-- The end of a launch ends its epochs (R81): the buffers left drain epoch by epoch, and in each in ascending logical
thread id, whatever the order in which the units completed. -/
def drainLast (l : Launch) (s : State) : State :=
  let bs := l.leftover.foldl (fun acc b => insertLeft b acc) []
  let last := bs.foldl (fun m b => b.2.foldl (fun m e => max m e.1) m) 0
  (List.range (last + 1)).foldl (fun s n => bs.foldl (fun s b => drainLeft (b.2.filter (fun e => e.1 == n)) s) s) s

/-! ### Completion (R242, R254, R257, R258) -/

/-- Change a launch that holds an entry. -/
def mapLaunch (s : State) (part entry gen : Nat) (f : Launch → Launch) : State :=
  mapPart s part (fun p =>
    { p with launches := p.launches.map (fun l => if l.entry = entry ∧ l.gen = gen then f l else l) })

/-- A launch counts as accepted, or as complete, in its job, graph and phase (R258). -/
def countLaunch (j : Job) (r : List Byte) (f : Counter → Counter) (g : Job → Job) : Job :=
  let gr := f (getCounter j.graphs (recGraph r))
  let ph := f (getCounter j.phases (recPhase r))
  g { j with graphs := setCounter gr j.graphs, phases := setCounter ph j.phases }

/-- FAULT of a launch, and of its graph, phase and job (R258; for the job log entry 10). -/
def markFault (part entry gen : Nat) (s : State) : State :=
  match findLaunch (getPart s part) entry gen with
  | none => s
  | some l =>
    mapPart (mapLaunch s part entry gen (fun l => { l with fault := true })) part (fun p =>
      setJob p (countLaunch (getJob p l.job) l.record (fun c => { c with fault := true })
        (fun j => { j with fault := true })))

/-- A joiner of a completed launch keeps its status word (R281). -/
def wakeThread (h : Nat) (word : W64) (t : Thread) : Thread :=
  match t.wait with
  | .counter x none => if x.toNat = h then { t with wait := .counter x (some word) } else t
  | _ => t

/-- Every waiting `join` and host join of a launch handle of a job takes the final word. -/
def wakeJoins (part job h : Nat) (word : W64) (s : State) : State :=
  let mine (u : UnitCtx) : Bool :=
    u.part == part && (match findLaunch (getPart s part) u.entry u.gen with | some l => l.job == job | none => false)
  let wake (u : UnitCtx) : UnitCtx :=
    if mine u then { u with threads := u.threads.map (wakeThread h word) } else u
  let s1 := { s with units := s.units.map wake, u := wake s.u, t := if mine s.u then wakeThread h word s.t else s.t }
  mapPart s1 part (fun p => { p with hostJoins := p.hostJoins.map (fun j =>
    if j.job = job ∧ j.handle.toNat = h ∧ j.final = none then { j with final := some word } else j) })

/-- Dependence waits that the completion of a launch satisfies stay satisfied (R260): `h` is its handle and `n` its
completed units. -/
def latchWaits (h n : Nat) (l : Launch) : Launch :=
  let hit (k : Nat) : Bool := let w := recWait l.record k; w.1 == 1 && w.2.1 == h && decide (w.2.2 ≤ n)
  { l with met := (List.range 4).foldl (fun m k => if hit k ∧ bitsAt m k 1 = 0 then m + 2 ^ k else m) l.met }

/-- A launch is complete: it counts so, frees its entry into quarantine, and is journalled where the ring accepted it
(R257, R258, R278). -/
def completeLaunch (part : Nat) (l : Launch) (s : State) : State :=
  let h := handleOf l.entry l.gen
  let word := statusWord true l.canc l.fault 0 l.completed
  let s1 := drainLast l s
  let s2 := wakeJoins part l.job h word s1
  let s3 := mapPart s2 part (fun p =>
    let p1 := setJob p (countLaunch (getJob p l.job) l.record
      (fun c => { c with outstanding := c.outstanding - 1, completed := c.completed + 1 })
      (fun j => { j with outstanding := j.outstanding - 1, completed := j.completed + 1 }))
    { p1 with launches := (p1.launches.filter (fun r => !(r.entry == l.entry && r.gen == l.gen))).map
                (fun r => if r.job = l.job then latchWaits h l.completed r else r),
              quarantine := p1.quarantine ++ [(l.entry, s.time)] })
  if l.jseq = 0 then s3 else journal s3 part 2 0 l.job l.jseq (leBytes 4 h ++ leBytes 4 0 ++ leBytes 8 word.toNat)

/-- A launch whose count is 0 completes, and counts for its parent in turn (R254). -/
def launchCheck : Nat → Nat → Nat → Nat → State → State
  | 0, _, _, _, s => s
  | n + 1, part, entry, gen, s =>
    match findLaunch (getPart s part) entry gen with
    | none => s
    | some l =>
      if l.outstanding ≠ 0 then s
      else
        let s1 := completeLaunch part l s
        match l.parent with
        | none => s1
        | some (e, g) =>
          launchCheck n part e g (mapLaunch s1 part e g (fun p => { p with outstanding := p.outstanding - 1 }))

/-- A bound on the length of a chain of launches: depths 0 to 24 (R266). -/
def chainBound : Nat := 32

/-- The thread has ended: its context is zeroed, and what it committed remains to perform (R287, R320). -/
def deadThread (t : Thread) : Thread :=
  { Thread.none with slot := t.slot, performing := t.performing, wcb := t.wcb, epoch := t.epoch }

/-- Everything that a unit's threads committed performs. -/
def drainUnit (uid : Nat) (s : State) : State :=
  match unitAt s uid with
  | none => s
  | some u => u.threads.foldl (fun s t => onThread { uid, slot := t.slot } drain s) s

/-- The unit is complete: it leaves its cluster and counts in its launch (R242, R258). -/
def unitDone (uid : Nat) (s : State) : State :=
  match unitAt s uid with
  | none => s
  | some u =>
    let left := (u.threads.filter (fun t => !t.wcb.isEmpty)).map (fun t => (u.index * 16 + t.slot, t.wcb))
    let s1 := park s
    let s2 := { s1 with units := s1.units.filter (fun r => r.uid != uid) }
    let s3 := freeFrame u 2 0 s2
    let s4 := mapPart s3 u.part (fun p =>
      { p with launches := p.launches.map (fun l =>
          let l1 := if l.parentUid = uid ∧ l.finalTl = none then { l with finalTl := some (u.tl.toList ++ [u.tl15]) } else l
          if l.entry = u.entry ∧ l.gen = u.gen then
            { l1 with outstanding := l1.outstanding - 1, completed := l1.completed + 1, leftover := l1.leftover ++ left }
          else l1) })
    refocus (here s) (launchCheck chainBound u.part u.entry u.gen s4)

/-- The copies in progress of the current unit run to completion, and their timelines advance (R283). -/
def endStarted (s : State) : State :=
  (List.range 15).foldl (fun s tl =>
    match headCopy s tl with
    | some c => if c.ended then finishCopy s c else s
    | none => s) s

/-- A collective timeline of the unit is suspended. -/
def glStopped (u : UnitCtx) (gl : Nat) : Bool := (u.gsusp.toList.getD gl none).isSome

/-- A command that survives the end of its unit: no copy, and no collective behind a suspended one (R283, R333). -/
def keptCmd (u : UnitCtx) (c : Cmd) : Bool :=
  match c with
  | .copy .. => false
  | .coll gl .. => !glStopped u gl
  | .xsend .. => true

/-- The collectives that a unit has on a suspended timeline are discarded (R333). -/
def dropColls (u : UnitCtx) (s : State) : State :=
  mapPart s u.part (fun p => { p with colls := p.colls.filter (fun c => !(c.uid == u.uid && glStopped u c.gl)) })

/-- A unit's work is discarded: threads end at once, their open strips are discarded, and queued tile operations and
copies go (R283). -/
def stopThreads (u : UnitCtx) : UnitCtx :=
  let keep := keptCmd u
  { u with
    threads := u.threads.map (fun t =>
      let t1 := deadThread t
      { t1 with
        performing := t1.performing.filter (fun p => match p with | .cmd _ c => keep c | _ => true)
        wcb := t1.wcb.filter (fun p => match p.2 with | .cmd _ c => keep c | _ => true) })
    ops := [], copies := [], tsusp := none, csusp := Vector.replicate 15 none, gsusp := Vector.replicate 8 none }

/-- End a unit (R283); `fault` sets FAULT in its launch (R331). -/
def endUnit (uid : Nat) (fault : Bool) (s : State) : State :=
  match unitAt s uid with
  | none => s
  | some u =>
    let s1 := if fault then markFault u.part u.entry u.gen s else s
    let s2 := dropColls u (u.threads.foldl (fun s t => freeFrame u 1 t.slot s) s1)
    unitDone uid (drainUnit uid (mapUnit uid stopThreads (onUnit uid endStarted s2)))

/-- Bytes of a kind-6 journal entry (R345). -/
def endedData (u : UnitCtx) (tval spc : W64) (telem sub : Nat) : List Byte :=
  leBytes 4 (handleOf u.entry u.gen) ++ leBytes 4 u.index ++ leBytes 8 tval.toNat ++ leBytes 8 spc.toNat
    ++ leBytes 2 telem ++ leBytes 1 sub

/-- The job of a unit. -/
def jobOf (s : State) (u : UnitCtx) : Nat :=
  match findLaunch (getPart s u.part) u.entry u.gen with
  | some l => l.job
  | none => 0xFFFF

/-- A unit ends after a fault: a kind-6 entry, then as cancelled, with FAULT set (R331). -/
def endFaulted (uid code : Nat) (tval spc : W64) (telem sub : Nat) (s : State) : State :=
  match unitAt s uid with
  | none => s
  | some u => endUnit uid true (journal s u.part 6 code (jobOf s u) 0 (endedData u tval spc telem sub))

/-- The first suspended engine context of a unit in the order of R332. -/
def firstSuspend (u : UnitCtx) (test : Suspend → Bool) : Option Suspend :=
  let all := u.csusp.toList ++ u.gsusp.toList ++ [u.tsusp]
  match all.find? (fun x => match x with | some y => test y | none => false) with
  | some x => x
  | none => none

/-- A buffer holds an engine command that has not issued. -/
def holdsCmd (t : Thread) : Bool := t.wcb.any (fun e => match e.2 with | .cmd .. => true | _ => false)

/-- A unit with no live thread: its commits perform, a suspended engine context ends it (R333), and it is complete once
every copy and tile operation has completed (R242). -/
def unitCheck (uid : Nat) (s : State) : State :=
  match unitAt s uid with
  | none => s
  | some u0 =>
    if u0.threads.any (fun t => t.live) then s
    else
      let s1 := drainUnit uid s
      match unitAt s1 uid with
      | none => s1
      | some u =>
        match firstSuspend u (fun _ => true) with
        | some x => endFaulted uid 0x12 x.tval 0 x.telem x.sub s1
        | none =>
          if !u.copies.isEmpty || !u.ops.isEmpty || u.threads.any holdsCmd then s1 else unitDone uid s1

/-! ### Cancellation (R283) -/

/-- Cancel a launch, its units and, in turn, its children without NBP. -/
def cancelLaunch : Nat → Nat → Nat → Nat → State → State
  | 0, _, _, _, s => s
  | n + 1, part, entry, gen, s =>
    match findLaunch (getPart s part) entry gen with
    | none => s
    | some l =>
      if l.canc then s
      else
        let units := recUnits l.record
        let s1 := mapLaunch s part entry gen (fun l =>
          { l with canc := true, outstanding := l.outstanding - (units - l.nextUnit),
                   completed := l.completed + (units - l.nextUnit), nextUnit := units })
        let mine := (allUnits s1).filter (fun u => u.part == part && u.entry == entry && u.gen == gen)
        let s2 := mine.foldl (fun s u => endUnit u.uid false s) s1
        let kids := (getPart s2 part).launches.filter (fun r => r.parent == some (entry, gen))
        let s3 := kids.foldl (fun s k => cancelLaunch n part k.entry k.gen s) s2
        launchCheck chainBound part entry gen s3

/-- Cancel every launch of a job that a test selects. -/
def cancelWhere (part job : Nat) (test : Launch → Bool) (s : State) : State :=
  let ls := (getPart s part).launches.filter (fun l => l.job == job && test l)
  ls.foldl (fun s l => cancelLaunch chainBound part l.entry l.gen s) s

/-- The device leaves a job: the collectives of the job are over with code 3, and no timeline of its units is suspended for one
(R303). COLLECTIVE_COMPLETE writes their status. -/
def loseColls (part job : Nat) (s : State) : State :=
  let free (u : UnitCtx) : UnitCtx :=
    if u.part = part ∧ jobOf s u = job then { u with gsusp := Vector.replicate 8 none } else u
  mapPart { s with u := free s.u, units := s.units.map free } part (fun p =>
    { p with colls := p.colls.map (fun c => if c.job = job then { c with running := true, code := 3 } else c) })

/-- CANC of a job (R283, R306). The collectives of a job that is cancelled already are over. -/
def cancelJob (part job : Nat) (s : State) : State :=
  cancelWhere part job (fun _ => true)
    (if (getJob (getPart s part) job).canc then s
     else loseColls part job (mapPart s part (fun p => setJob p { getJob p job with canc := true })))

/-- A job-level cancel of a job that spans devices sends a cancel message to each of the others (R306). -/
def sendCancels (part job : Nat) (s : State) : State :=
  mapPart s part (fun p =>
    let j := getJob p job
    { p with cancelOut := p.cancelOut ++ (j.ranks.filter (fun r => r != j.rank)).map (fun r => (r, job)) })

/-- Cancel the level that a valid handle of a job names. A job that is cancelled already sends no further message (R283). -/
def cancelHandle (part job h : Nat) (s : State) : State :=
  match parseHandle h with
  | some (1, gen, num) =>
    match launchOf (getPart s part) job num gen with
    | some _ => cancelLaunch chainBound part num gen s
    | none => s
  | some (2, _, num) =>
    cancelWhere part job (fun l => recGraph l.record == num) (mapPart s part (fun p =>
      let j := getJob p job
      setJob p { j with graphs := setCounter { getCounter j.graphs num with canc := true } j.graphs }))
  | some (3, _, num) =>
    cancelWhere part job (fun l => recPhase l.record == num) (mapPart s part (fun p =>
      let j := getJob p job
      setJob p { j with phases := setCounter { getCounter j.phases num with canc := true } j.phases }))
  | some (_, _, _) =>
    if (getJob (getPart s part) job).canc then cancelJob part job s else sendCancels part job (cancelJob part job s)
  | none => s

/-! ### Acceptance (R257, R258, R264) -/

/-- Who creates a launch: its depth, and for a launch by a thread its unit and die, its launch and the launches above. -/
structure Creator where
  depth : Nat
  uid : Nat
  die : Nat
  parent : Option (Nat × Nat)
  ancestors : List Ancestor
  /-- SEQ of the kind-1 journal entry of a launch from the command ring; 0 for none -/
  jseq : Nat
  deriving DecidableEq, Repr

/-- No thread creates the launch: the command ring, or a packet (R265, R278, R286). -/
def Creator.outside (depth jseq : Nat) : Creator := { depth, uid := 0, die := 0, parent := none, ancestors := [], jseq }

/-- Entries that a job holds. -/
def heldBy (p : PartState) (job : Nat) : Nat := (p.launches.filter (fun l => l.job == job)).length

/-- The status of a refusal: 1 the quota is used up, 2 the pool is full; none where an entry can be taken. -/
def refusal (p : PartState) (job : Nat) : Option Nat :=
  if (getJob p job).quota ≤ heldBy p job then some 1
  else if 4096 ≤ p.launches.length + p.quarantine.length then some 2 else none

/-- The lowest entry that is free and not quarantined (R257). -/
def freeEntry (p : PartState) : Nat :=
  ((List.range 4096).find? (fun n => !(p.launches.any (fun l => l.entry == n)) && !p.quarantine.any (fun q => q.1 == n))).getD 0

/-- GEN of the next acceptance into the entry that it takes (R257). -/
def freeGen (p : PartState) : Nat := (assocGet 0 p.gens (freeEntry p) + 1) % 65536

/-- Accept a launch into a free entry (R257, R258, R280): the handle, and the machine after it. A launch into a
cancelled graph, phase or job is cancelled at once (R283). -/
def acceptLaunch (part job : Nat) (rec_ : List Byte) (c : Creator) (s : State) : Nat × State :=
  let p := getPart s part
  let entry := freeEntry p
  let gen := freeGen p
  let parent := if recNbp rec_ then none else c.parent
  let l : Launch :=
    { entry, gen, job, depth := c.depth, record := rec_, parentUid := c.uid, parent, ancestors := c.ancestors,
      order := p.orders, outstanding := recUnits rec_, completed := 0, canc := false, fault := false, nextUnit := 0,
      met := 0, waited := 0, frozen := none, glDie := c.die, released := false, jseq := c.jseq, epochs := 0,
      leftover := [], finalTl := none }
  let j := getJob p job
  let p1 := setJob p (countLaunch j rec_ (fun c => { c with outstanding := c.outstanding + 1 })
    (fun j => { j with outstanding := j.outstanding + 1 }))
  let p2 := { p1 with launches := p1.launches ++ [l], gens := assocSet p1.gens entry gen, orders := p1.orders + 1 }
  let s1 := setPart s part p2
  let s2 := match parent with
    | some (e, g) => mapLaunch s1 part e g (fun l => { l with outstanding := l.outstanding + 1 })
    | none => s1
  let dead := j.canc || (getCounter j.graphs (recGraph rec_)).canc || (getCounter j.phases (recPhase rec_)).canc
  (handleOf entry gen, if dead then cancelLaunch chainBound part entry gen s2 else s2)

/-! ### Barriers and thread ends (R279, R287, R291) -/

/-- A generation is complete once every live thread has arrived (R279). -/
def barrierStep (u : UnitCtx) : UnitCtx :=
  if !u.arrived.isEmpty && (u.threads.filter (fun t => t.live)).all (fun t => u.arrived.contains t.slot) then
    { u with barGen := u.barGen + 1, arrived := [] }
  else u

/-- The current thread, which has committed, ends: its frame is freed and its core's shares recomputed before the
barrier and the unit are decided (R291). -/
def threadExit (s : State) : State :=
  let slot := s.t.slot
  let uid := s.u.uid
  let s1 := { s with t := deadThread s.t }
  let s2 := freeFrame s.u 1 slot s1
  let s3 := mapUnit uid barrierStep (reshare slot s2)
  unitCheck uid s3

end Sys2Proof.Machine
end

