-- ==== Sys2Proof/Machine/Launch.lean ====
section
/-! DEFINITION. The execution instructions: `bar`, `launch`, `join`, `cancel`, `ccread`, `yield`, `lanepart`, `xsend` and
`exit` (R263 to R290), and Hornbeam's order of launches (R259, R260, R267, R268), which `yield` asks. -/

namespace Sys2Proof.Machine

open Sys2Proof

/-! ### Ready launches and their order -/

/-- A dependence wait is satisfied (R260). The timelines are those of the launching unit, or their final values, and gl0
to gl7 those of the die on which the launching thread ran (R298). -/
def waitMet (s : State) (part : Nat) (l : Launch) (n : Nat) : Bool :=
  let w := recWait l.record n
  let p := getPart s part
  if w.1 = 1 then bitsAt l.met n 1 == 1 || decide (w.2.2 ≤ (handleWord p l.job w.2.1).toNat % 2 ^ 28)
  else if w.1 = 2 then
    if 16 ≤ w.2.1 then decide (w.2.2 ≤ glAt (getJob p l.job) l.glDie (w.2.1 - 16))
    else
      match l.finalTl with
      | some xs => decide (w.2.2 ≤ xs.getD w.2.1 0)
      | none =>
        match unitAt s l.parentUid with
        | some u => decide (w.2.2 ≤ (u.tl.toList ++ [u.tl15]).getD w.2.1 0)
        | none => w.2.2 == 0
  else true

/-- Every launch of a phase below is complete: on this device, and by termination detection for a job that spans
devices (R259, R305). DEDUCED: the counters of the phases are looked at each time, so a launch of a lower phase that is accepted
later holds the launch up again (log entry 10). -/
def phaseAllowed (p : PartState) (l : Launch) : Bool :=
  let j := getJob p l.job
  let ph := recPhase l.record
  j.phases.all (fun c => decide (ph ≤ c.num) || c.outstanding == 0)
  && (decide (j.ranks.length ≤ 1) || ph == 0 || l.released)

/-- A launch is ready (R260). -/
def launchReady (s : State) (part : Nat) (l : Launch) : Bool :=
  !l.canc && (List.range 4).all (waitMet s part l) && phaseAllowed (getPart s part) l

/-- Effective priority (R268): one level more for every 8 ms that the launch has been ready with a unit unplaced. -/
def effPrio (p : PartState) (l : Launch) : Nat :=
  l.frozen.getD (min (getJob p l.job).ceil (recPrio l.record + l.waited / 8000000))

/-- A launch has units that no placement has taken. -/
def unplaced (l : Launch) : Bool := decide (l.nextUnit < recUnits l.record)

/-- What may be placed: the next unit of a ready launch, or a switched-out unit (R267, R269). -/
inductive Candidate where
  | fresh (l : Launch)
  | back (l : Launch) (uid index : Nat)
  deriving DecidableEq, Repr

/-- The launch of a candidate. -/
def Candidate.launch : Candidate → Launch
  | .fresh l => l
  | .back l _ _ => l

/-- The unit index by which candidates of one launch are ordered. -/
def Candidate.index : Candidate → Nat
  | .fresh l => l.nextUnit
  | .back _ _ i => i

/-- Clusters of a partition that hold no unit. -/
def freeClusters (s : State) (part : Nat) : List Nat :=
  let used := (allUnits s).filterMap (fun u => u.cluster)
  (clustersOf s part).filter (fun c => !used.contains c)

/-- The clusters without a unit that can address a launch's CSP image (R262). -/
def holders (s : State) (part : Nat) (l : Launch) : List Nat :=
  (freeClusters s part).filter (fun c => cspHolds s c (recCspLen l.record))

/-- Units of a launch that one placement takes: all of a CORES launch, else one. -/
def unitsAtOnce (l : Launch) : Nat := if recCores l.record then recUnits l.record - l.nextUnit else 1

/-- Switched-out units that come back with a unit: those of its launch when it has CORES, else the unit alone. -/
def backTogether (s : State) (part : Nat) (l : Launch) (uid : Nat) : List Nat :=
  if recCores l.record then
    ((allUnits s).filter (fun u => u.part == part && u.entry == l.entry && u.gen == l.gen && u.cluster.isNone)).map
      (fun u => u.uid)
  else [uid]

/-- The clusters that a candidate takes. -/
def clustersNeeded (s : State) (part : Nat) (c : Candidate) : Nat :=
  match c with
  | .fresh l => unitsAtOnce l
  | .back l uid _ => (backTogether s part l uid).length

/-- A candidate waits for a cluster: too few that can hold it are empty. DEDUCED: an empty cluster whose scratchpad is too small
for its CSPLEN is not free for it (R269; log entry 14). -/
def lacksCluster (s : State) (part : Nat) (c : Candidate) : Bool :=
  decide ((holders s part c.launch).length < clustersNeeded s part c)

/-- Free entries of the context table, by kind. -/
def freeEntries (p : PartState) (kind : Nat) : List (Nat × CtxEntry) :=
  ctxWhere p (fun e => e.state == 0 && e.kind == kind)

/-- The table has frames for a number of units of a launch. -/
def framesFor (p : PartState) (l : Launch) (units : Nat) : Bool :=
  decide (units ≤ (freeEntries p 2).length) && decide (units * recThreads l.record ≤ (freeEntries p 1).length)

/-- The entries that a test selects whose frames are not in DRAM: as Hornbeam last read the table, or as DRAM holds it
now (R338). -/
def absentWhere (s : State) (part : Nat) (test : CtxEntry → Bool) : List (Nat × CtxEntry) :=
  (ctxWhere (getPart s part) test).filter (fun e =>
    bitsAt e.2.flags 0 1 == 0 || bitsAt (freshEntry s part e.1 e.2).flags 0 1 == 0)

/-- An entry belongs to a context of a unit. -/
def ofUnit (u : UnitCtx) (e : CtxEntry) : Bool :=
  e.state != 0 && e.handle == handleOf u.entry u.gen && e.unit == u.index

/-- The frames of a switched-out unit that are not in DRAM (R338). -/
def absentFrames (s : State) (part uid : Nat) : List (Nat × CtxEntry) :=
  match unitAt s uid with
  | none => []
  | some u => absentWhere s part (ofUnit u)

/-! ### Waits (R276) -/

/-- The current thread's launch with those above it (R263). -/
def myChain (s : State) : List Ancestor :=
  match myLaunch s with
  | some l => { entry := l.entry, gen := l.gen, graph := recGraph l.record, phase := recPhase l.record } :: l.ancestors
  | none => []

/-- Every entry of the quota is held by the thread's own launch and its ancestors (R264). -/
def quotaIsOwn (s : State) : Bool :=
  let chain := myChain s
  ((myPart s).launches.filter (fun l => l.job == myJobId s)).all (fun l =>
    chain.any (fun a => a.entry == l.entry && a.gen == l.gen))

/-- What the current thread waits for has come about, but for the accesses that hold up a `tlbinv`. A graph or phase is
looked at as it stands: DEDUCED, that its count has been 0 for a moment ends no wait (log entry 10). -/
def waitOver (s : State) : Bool :=
  match s.t.wait with
  | .none => false
  | .start => false
  | .bar g => s.u.barGen != g
  | .counter h final => final.isSome || handleDone (myPart s) (myJobId s) h.toNat
  | .pool _ =>
    match refusal (myPart s) (myJobId s) with
    | none => s.t.wcb.isEmpty
    | some r => r == 1 && quotaIsOwn s
  | .timeline n v => decide (v ≤ timelineValue s n) || (suspendedOn s n).isSome
  | .outstanding _ ns nc nt =>
    decide (openStores s.t + performingStores s.t ≤ ns) && decide (openCopies s.t + runningCopies s ≤ nc)
      && decide (openTileOps s ≤ nt)
  | .chanFree ch =>
    let c := getChan s ch
    c.scount == 0 || decide (c.full + localSent s.t ch < c.scount)
  | .chanFull ch =>
    let c := getChan s ch
    c.scount == 0 || decide (localRecvd s.t ch < c.full)
  | .epoch n =>
    match myLaunch s with
    | some l => decide (n ≤ l.epochs)
    | none => true
  | .tileRoom => decide (s.u.tl15Issued - s.u.tl15 < 32) || s.u.tsusp.isSome
  | .pins .. => false
  | .performed => allPerformed s.t

/-- A thread stands in one of the waits that make it a waiting context (R276). -/
def waitsAsContext (t : Thread) : Bool :=
  match t.wait with
  | .none => false
  | .start => false
  | .pins .. => false
  | .performed => false
  | .tileRoom => false
  | .bar _ | .counter .. | .pool _ | .timeline .. | .outstanding .. | .chanFree _ | .chanFull _ | .epoch _ => true

/-- A thread of a unit is a waiting context: what it waits for has not come about, or it would be ready (R276). -/
def isWaiting (s : State) (i : Tid) : Bool :=
  match focus i s with
  | some s1 => waitsAsContext s1.t && !waitOver s1
  | none => false

/-- Every live thread of a unit is a waiting context (R269). DEDUCED: a unit with no live thread, which only has engine work
left, is not idle (log entry 14). -/
def unitIdle (s : State) (u : UnitCtx) : Bool :=
  let live := u.threads.filter (fun t => t.live)
  !live.isEmpty && live.all (fun t => isWaiting s { uid := u.uid, slot := t.slot })

/-! ### Room (R267, R269) -/

/-- A unit may lose its cluster to a launch of its own priority: 2 ms have passed since its placement, or it has yielded
(R269, R284). DEDUCED: one that has yielded stays such a victim until it is next switched out (log entry 14). -/
def quantumOver (s : State) (u : UnitCtx) : Bool := u.yielding || decide (2000000 ≤ s.time - u.since)

/-- Resident units of a partition with their launches. -/
def residents (s : State) (part : Nat) : List (UnitCtx × Launch) :=
  ((allUnits s).filter (fun u => u.part == part && u.cluster.isSome)).filterMap (fun u =>
    (findLaunch (getPart s part) u.entry u.gen).map (fun l => (u, l)))

/-- The resident units of other launches whose clusters can hold a candidate. -/
def rivals (s : State) (part : Nat) (c : Candidate) : List (UnitCtx × Launch) :=
  (residents s part).filter (fun v =>
    v.2.order != c.launch.order && cspHolds s (v.1.cluster.getD 0) (recCspLen c.launch.record))

/-- Pre-emption: the candidate's effective priority exceeds that of the unit's launch (R269). -/
def preempts (p : PartState) (c : Candidate) (v : UnitCtx × Launch) : Bool := decide (effPrio p v.2 < effPrio p c.launch)

/-- The quantum: the same effective priority, or for a unit that has yielded one at least its own (R269, R284). -/
def outlasts (s : State) (p : PartState) (c : Candidate) (v : UnitCtx × Launch) : Bool :=
  quantumOver s v.1 && (effPrio p v.2 == effPrio p c.launch || (v.1.yielding && preempts p c v))

/-- The clusters that a candidate can have: empty ones, and those whose unit may be switched out for it (R267, R269). -/
def hasRoom (s : State) (part : Nat) (c : Candidate) : Bool :=
  let p := getPart s part
  let taken := (rivals s part c).filter (fun v => preempts p c v || outlasts s p c v || unitIdle s v.1)
  decide (clustersNeeded s part c ≤ (holders s part c.launch).length + taken.length)

/-- The frames that a candidate takes are there: free entries for a fresh unit, and its own in DRAM for another. -/
def framesReady (s : State) (part : Nat) (c : Candidate) : Bool :=
  match c with
  | .fresh l => framesFor (getPart s part) l (unitsAtOnce l)
  | .back l uid _ => (backTogether s part l uid).all (fun n => (absentFrames s part n).isEmpty)

/-- A candidate can be placed: its frames are there, and the clusters that it needs are empty or can be made so. -/
def placeable (s : State) (part : Nat) (c : Candidate) : Bool := hasRoom s part c && framesReady s part c

/-- What names a candidate while others give way to it: its launch's acceptance order and its unit index. -/
def Candidate.key (c : Candidate) : Nat × Nat := (c.launch.order, c.index)

/-- The ready launches with a unit unplaced, and the switched-out units, of a partition. -/
def offered (s : State) (part : Nat) : List Candidate :=
  let p := getPart s part
  let fresh := (p.launches.filter (fun l => unplaced l && launchReady s part l)).map Candidate.fresh
  let out := (allUnits s).filter (fun u => u.part == part && u.cluster == none)
  fresh ++ out.filterMap (fun u => (findLaunch p u.entry u.gen).map (fun l => .back l u.uid u.index))

/-- A unit was switched out to make room for a candidate (R269). -/
def awaited (s : State) (part : Nat) (c : Candidate) : Bool :=
  (allUnits s).any (fun u => u.part == part && u.behind == some c.key)

/-- While a candidate can be placed for which a unit was switched out, the cluster is that candidate's: every unit of the
victim's launch waits, for the units of one launch never displace each other (R269), unless a unit was switched out for it in
its turn. -/
def givesWay (s : State) (part : Nat) (c : Candidate) : Bool :=
  !awaited s part c &&
    (allUnits s).any (fun u => u.part == part && u.entry == c.launch.entry && u.gen == c.launch.gen &&
      (offered s part).any (fun d => u.behind == some d.key && placeable s part d))

/-- Candidates of a partition (R267). -/
def candidates (s : State) (part : Nat) : List Candidate := (offered s part).filter (fun c => !givesWay s part c)

/-- One candidate goes before another: effective priority, acceptance order, unit index (R267). -/
def goesBefore (p : PartState) (a b : Candidate) : Bool :=
  let pa := effPrio p a.launch
  let pb := effPrio p b.launch
  decide (pb < pa) || (pa == pb && (decide (a.launch.order < b.launch.order)
    || (a.launch.order == b.launch.order && decide (a.index < b.index))))

/-- Insert a candidate in order. -/
def insertCandidate (p : PartState) (c : Candidate) : List Candidate → List Candidate
  | [] => [c]
  | r :: rs => if goesBefore p c r then c :: r :: rs else r :: insertCandidate p c rs

/-- The candidates in Hornbeam's order (R267). -/
def inOrder (s : State) (part : Nat) : List Candidate :=
  (candidates s part).foldl (fun acc c => insertCandidate (getPart s part) c acc) []

/-- A tick of the device's time: launches that are ready with a unit unplaced gain waiting time (R268), and open strips
and corrected errors grow older by the cycles that the arithmetic clock makes (R240, R341, R351). -/
def tick (ns : Nat) (s : State) : State :=
  let old (part : Nat) (t : Thread) : Thread := { t with stripAge := t.stripAge + ns * partClk s part }
  let oldU (u : UnitCtx) : UnitCtx := { u with threads := u.threads.map (old u.part) }
  let wait (part : Nat) (l : Launch) : Launch :=
    if unplaced l && launchReady s part l then { l with waited := l.waited + ns } else l
  { s with
    time := s.time + ns
    t := old s.u.part s.t
    u := oldU s.u
    units := s.units.map oldU
    parts := Vector.ofFn (fun (i : Fin 4) =>
      { s.parts[i] with launches := s.parts[i].launches.map (wait i.val) })
    laneErrors := s.laneErrors.map (fun e => (e.1, e.2 + ns * partClk s (partOfDie s.config (e.1.1 / 128)))) }

/-! ### The instructions -/

/-- BAR (R279). The release makes the thread's commits perform before it arrives. -/
def execBar (f : Form) (s : State) : Host.Outcome State Fault Refusal :=
  runForm 0xE0 f s (fun s =>
    let scope := max 2 (scopeOf f)
    let leave (s : State) : Res := .done (closeDone (if orderOf f ≠ 2 then acquire s scope else s))
    match s.t.wait with
    | .bar g => if s.u.barGen = g then .waiting (.bar g) s else leave s
    | _ =>
      let s1 := commit s
      let s2 := if orderOf f ≠ 1 then drain s1 else s1
      let g := s2.u.barGen
      let s3 := mapUnit s2.u.uid (fun u => barrierStep { u with arrived := u.arrived ++ [s2.t.slot] }) s2
      if s3.u.barGen = g then .waiting (.bar g) (openStrip s3 1) else leave s3)

/-- The depth of a launch that the current thread creates (R265). -/
def childDepth (s : State) : Nat :=
  match myLaunch s with
  | some l => l.depth + 1
  | none => 1

/-- The current thread as a creator. -/
def myCreator (s : State) : Creator :=
  { depth := childDepth s, uid := s.u.uid, die := myDie s, parent := some (s.u.entry, s.u.gen), ancestors := myChain s, jseq := 0 }

/-- tval of a Launch fault: the reason above an address or a handle (R263). -/
def launchVal (reason : Nat) (v : W64) : W64 := BitVec.ofNat 64 (reason * 2 ^ 56 + bitsAt v.toNat 0 56)

/-- The loop of R280 over a checked record, and its release: the launch is accepted once every prior store of the thread has
performed, in a DET launch at the ends of their epochs (R81, R242; log entry 8). -/
def launchTry (nb : Bool) (f : Form) (r : W64) (rec_ : List Byte) (s : State) : Res :=
  let job := myJobId s
  match refusal (myPart s) job with
  | some st =>
    if nb then .done (closeDone (setX s f.d (BitVec.ofNat 64 st)))
    else if st = 1 ∧ quotaIsOwn s then faultC 0x13 (launchVal 4 r) s
    else .waiting (.pool rec_) s
  | none =>
    let s1 := drain s
    if !s1.t.wcb.isEmpty then .waiting (.pool rec_) s1
    else
      let a := acceptLaunch s1.u.part job rec_ (myCreator s1) s1
      .done (closeDone (setX a.2 f.d (BitVec.ofNat 64 a.1)))

/-- LAUNCH and LAUNCH.NB (R280). A waiting launch keeps the record as it was read. -/
def launchForm (nb : Bool) (f : Form) (s : State) : Host.Outcome State Fault Refusal :=
  runForm 0xE1 f s (fun s => afterEpoch (openStrip (commit s) 1) (fun s =>
    let r := getX s f.a
    match s.t.wait with
    | .pool rec_ => launchTry nb f r rec_ s
    | _ =>
      if r.toNat % 64 ≠ 0 then faultC 0x06 r s
      else
        match readRecord s r.toNat 128 with
        | .error c => .faultC c s
        | .ok (rec_, s1) =>
          match recordReason s1 s1.u.part (myJobId s1) rec_ true true with
          | some n => faultC 0x13 (launchVal n r) s1
          | none =>
            if (myJob s1).depthLimit < childDepth s1 then
              if nb then .done (closeDone (setX s1 f.d 3)) else faultC 0x13 (launchVal 3 r) s1
            else launchTry nb f r rec_ s1))

/-- LAUNCH (R280). -/
def execLaunch (f : Form) (s : State) : Host.Outcome State Fault Refusal := launchForm false f s
/-- LAUNCH.NB (R280). -/
def execLaunchNb (f : Form) (s : State) : Host.Outcome State Fault Refusal := launchForm true f s

/-- Reason 7: a level that cannot complete while the thread waits (R263). -/
def joinsItself (s : State) (level gen num : Nat) : Bool :=
  let chain := myChain s
  match level with
  | 1 => chain.any (fun a => a.entry == num && a.gen == gen) && (launchOf (myPart s) (myJobId s) num gen).isSome
  | 2 => chain.any (fun a => a.graph == num)
  | 3 => chain.any (fun a => decide (a.phase ≤ num))
  | _ => true

/-- The status word of a handle whose counter is DONE: the one kept for a waiting join, or the one it reads. -/
def joinWord (s : State) (h : W64) : Option W64 :=
  match s.t.wait with
  | .counter _ (some w) => some w
  | _ => if handleDone (myPart s) (myJobId s) h.toNat then some (handleWord (myPart s) (myJobId s) h.toNat) else none

/-- JOIN (R281). -/
def execJoin (f : Form) (s : State) : Host.Outcome State Fault Refusal :=
  runForm 0xE2 f s (fun s =>
    let s1 := openStrip (commit s) 1
    let h := getX s f.a
    match parseHandle h.toNat with
    | none => faultC 0x13 (launchVal 6 h) s1
    | some (level, gen, num) =>
      match joinWord s1 h with
      | some w =>
        if s1.t.wait = .none ∧ joinsItself s1 level gen num then faultC 0x13 (launchVal 7 h) s1
        else .done (closeDone (acquire (setX s1 f.d w) (max 4 (scopeOf f))))
      | none =>
        if joinsItself s1 level gen num then faultC 0x13 (launchVal 7 h) s1 else .waiting (.counter h none) s1)

/-- CANCEL (R283). -/
def execCancel (f : Form) (s : State) : Host.Outcome State Fault Refusal :=
  runForm 0xE3 f s (fun s =>
    let h := getX s f.a
    match parseHandle h.toNat with
    | none => faultR 0x13 (launchVal 6 h) s
    | some _ => .done (cancelHandle s.u.part (myJobId s) h.toNat (nextPc s)))

/-- CCREAD (R282). -/
def execCcread (f : Form) (s : State) : Host.Outcome State Fault Refusal :=
  runForm 0xE4 f s (fun s =>
    let h := getX s f.a
    match parseHandle h.toNat with
    | none => faultR 0x13 (launchVal 6 h) s
    | some _ => writeX f (handleWord (myPart s) (myJobId s) h.toNat) s)

/-- A ready launch of at least a priority waits for a cluster. -/
def waitsForCluster (s : State) (part prio order : Nat) : Bool :=
  let p := getPart s part
  (candidates s part).any (fun c =>
    decide (prio ≤ effPrio p c.launch) && c.launch.order != order && lacksCluster s part c)

/-- YIELD (R284). -/
def execYield (f : Form) (s : State) : Host.Outcome State Fault Refusal :=
  runForm 0xE5 f s (fun s =>
    let s1 := closeDone (commit s)
    match myLaunch s1 with
    | none => .done s1
    | some l =>
      if waitsForCluster s1 s1.u.part (effPrio (myPart s1) l) l.order then
        .done { s1 with u := { s1.u with yielding := true } }
      else .done s1)

/-- lpr (R271). SIB reads 0 while the sibling is switched out alone: only R272 counts it as resident then. -/
def lprWord (s : State) : W64 :=
  BitVec.ofNat 64 (s.t.own + siblingShare s * 2 ^ 8 + s.t.pend * 2 ^ 16 + s.t.dem * 2 ^ 24)

/-- LANEPART (R285, R290). -/
def execLanepart (f : Form) (s : State) : Host.Outcome State Fault Refusal :=
  runForm 0xE6 f s (fun s =>
    let n := (getX s f.a).toNat
    if isDet s ∨ n = 0 ∨ n % 8 ≠ 0 ∨ 64 < n then config s
    else
      let s1 := setX s f.d (lprWord s)
      .done (nextPc (reshare s1.t.slot { s1 with t := { s1.t with dem := n } })))

/-- XSEND (R286). The high bits of X[b] name no rank. -/
def execXsend (f : Form) (s : State) : Host.Outcome State Fault Refusal :=
  runForm 0xE8 f s (fun s => afterEpoch s (fun s =>
    let r := getX s f.a
    let rank := (getX s f.b).toNat
    if r.toNat % 64 ≠ 0 then faultR 0x06 r s
    else
      match readRecord s r.toNat 128 with
      | .error c => .faultR c s
      | .ok (rec_, s1) =>
        let j := myJob s1
        match recordReason s1 s1.u.part (myJobId s1) rec_ false false with
        | some n => faultR 0x13 (launchVal n r) s1
        | none =>
          if j.depthLimit < childDepth s1 then faultR 0x13 (launchVal 3 r) s1
          else if !(j.ranks.contains rank) then faultR 0x13 (launchVal 8 r) s1
          else
            let pkt : Packet := { job := myJobId s1, src := j.rank, depth := childDepth s1, bytes := rec_ }
            .done (nextPc (addCmd s1 (.xsend rank pkt)))))

/-- EXIT (R287). -/
def execExit (f : Form) (s : State) : Host.Outcome State Fault Refusal :=
  runForm 0xE9 f s (fun s => .done (threadExit (commit s)))

end Sys2Proof.Machine
end

