-- ==== Sys2Proof/Machine/Engine.lean ====
section
/-! DEFINITION. The engines of a unit: tile operations fire, run and complete (R163, R175, R176, R184), copies start and
complete (R232, R233), and how an event of the table is applied. -/

namespace Sys2Proof.Machine

open Sys2Proof

/-! ### Events -/

/-- An event happens on a running package; where its condition does not hold there is no next state (log entry 6). -/
def runEvent (s : State) (body : State → Option State) : Host.Outcome State Fault Refusal :=
  if !s.powered then .fault .powerOff
  else if s.bootFail || s.stage != 7 then .fault .bootHalted
  else
    match body s with
    | some s1 => .next s1
    | none => .fault .noSuchAgent

/-- An event of a live thread; the thread that was current stays so. -/
def threadEvent (t : Tid) (s : State) (body : State → Option State) : Host.Outcome State Fault Refusal :=
  runEvent s (fun s =>
    match focus t s with
    | none => none
    | some s1 => if s1.t.live then (body s1).map (refocus (here s)) else none)

/-- An event of a unit. -/
def unitEvent (uid : Nat) (s : State) (body : State → Option State) : Host.Outcome State Fault Refusal :=
  runEvent s (fun s =>
    match focusUnit uid s with
    | none => none
    | some s1 => (body s1).map (refocus (here s)))

/-! ### Tile operations -/

/-- An operation of the current unit replaced, by its number. -/
def setOp (s : State) (p : TileOp) : State :=
  { s with u := { s.u with ops := s.u.ops.map (fun r => if r.num = p.num then p else r) } }

/-- The stores that the issue of an operation releases have not all performed (R165). -/
def waitsRelease (num : Nat) (t : Thread) : Bool :=
  t.performing.contains (.tile num) || t.wcb.any (fun e => e.2 == .tile num)

/-- Slots that an operation takes on a channel, as an input or as an output. -/
def slotsOn (p : TileOp) (ch : Nat) (out : Bool) : Nat :=
  (p.chans.filter (fun o => o.ch == ch && o.out == out)).foldl (fun acc o => acc + o.nslot) 0

/-- Every channel has the slots that an operation needs (R184). -/
def slotsReady (s : State) (p : TileOp) : Bool :=
  (List.range 16).all (fun ch =>
    let c := getChan s ch
    decide (slotsOn p ch false ≤ c.full - c.claimedIn) && decide (slotsOn p ch true ≤ c.scount - c.full - c.claimedOut))

/-- The operation that fires next on a placed unit: the oldest that has not, once every earlier one is done (R184). -/
def nextToFire (s : State) : Option TileOp :=
  match s.u.ops.find? (fun p => !(p.fired && p.done)) with
  | none => none
  | some p =>
    if !p.fired && s.u.cluster.isSome && s.u.tsusp.isNone && !s.u.tstop && !((unitThreads s).any (waitsRelease p.num)) && slotsReady s p then
      some p
    else none

/-- An operation claims its slots when it fires (R184). -/
def claimSlots (s : State) (p : TileOp) : State :=
  (List.range 16).foldl (fun s ch =>
    let c := getChan s ch
    setChan s ch { c with claimedIn := c.claimedIn + slotsOn p ch false, claimedOut := c.claimedOut + slotsOn p ch true }) s

/-- An operation releases its input slots and publishes its output slots when it completes (R184). -/
def settleSlots (s : State) (p : TileOp) : State :=
  (List.range 16).foldl (fun s ch =>
    let c := getChan s ch
    let i := slotsOn p ch false
    let o := slotsOn p ch true
    if c.scount = 0 ∨ (i = 0 ∧ o = 0) then s
    else setChan s ch { c with full := c.full + o - i, cpos := (c.cpos + i) % c.scount, ppos := (c.ppos + o) % c.scount,
                               claimedIn := c.claimedIn - i, claimedOut := c.claimedOut - o }) s

/-- Up to `n` rows of an operation perform from its row on, until it is done or is suspended (R175, R176). -/
def runTile (n : Nat) (s : State) (p : TileOp) : State :=
  match performOp n s p with
  | (s1, none) => setOp s1 { p with row := min (p.row + n) p.rowCount, done := decide (p.rowCount ≤ p.row + n) }
  | (s1, some (row, f)) =>
    let s2 := setOp s1 { p with row := row }
    { s2 with u := { s2.u with tsusp := some { sub := f.code, tval := BitVec.ofNat 64 f.addr, telem := row, issuer := 8,
                                               delivered := false } } }

/-- The operation in progress: it has fired, and not all its rows have performed. -/
def inProgress (s : State) : Option TileOp := s.u.ops.find? (fun p => p.fired && !p.done)

/-- The suspended operation goes on at its row (R176). -/
def resumeTile (s : State) : State := { s with u := { s.u with tsusp := none } }

/-- rpr (R169). OPNUM, SUBCAUSE and ROW read 0 where no operation is suspended or stopped (log entry 17). -/
def rprWord (s : State) : W64 :=
  match inProgress s with
  | none => 0
  | some p =>
    match s.u.tsusp with
    | some x => BitVec.ofNat 64 (p.num % 2 ^ 32 * 2 ^ 32 + 2 ^ 31 + (if s.u.tstop then 2 ^ 30 else 0)
        + x.sub % 64 * 2 ^ 24 + p.row % 512)
    | none => if s.u.tstop then BitVec.ofNat 64 (p.num % 2 ^ 32 * 2 ^ 32 + 2 ^ 30 + p.row % 512) else 0

/-- The unit is looked at after its engines have moved: with no live thread it may end (R242, R333). -/
def settle (s : State) : State := unitCheck s.u.uid s

/-- TILE_OPERATION_FIRE (R184): the operation claims its slots; its rows perform as the engine reaches them. One with no
row is done at once. -/
def execTileOperationFire (uid : Nat) (s : State) : Host.Outcome State Fault Refusal :=
  unitEvent uid s (fun s =>
    match nextToFire s with
    | none => none
    | some p =>
      let q := { p with fired := true }
      some (settle (runTile 0 (setOp (claimSlots s p) q) q)))

/-- Up to `n` further rows of the operation in progress of a placed unit perform (R175, R176). -/
def execTileRows (uid n : Nat) (s : State) : Host.Outcome State Fault Refusal :=
  unitEvent uid s (fun s =>
    match inProgress s with
    | none => none
    | some p =>
      if n ≠ 0 && s.u.cluster.isSome && s.u.tsusp.isNone && !s.u.tstop then some (settle (runTile n s p)) else none)

/-- TILE_OPERATION_COMPLETE (R163, R184). -/
def execTileOperationComplete (uid : Nat) (s : State) : Host.Outcome State Fault Refusal :=
  unitEvent uid s (fun s =>
    match s.u.ops with
    | [] => none
    | p :: rest =>
      if p.fired && p.done then
        let s1 := settleSlots s p
        some (settle { s1 with u := { s1.u with ops := rest, tl15 := p.num } })
      else none)

/-! ### Copies -/

/-- COPY_START (R232, R233). -/
def execCopyStart (uid tl : Nat) (s : State) : Host.Outcome State Fault Refusal :=
  unitEvent uid s (fun s =>
    match headCopy s tl with
    | none => none
    | some c => if c.started then none else some (settle (runCopy s c)))

/-- COPY_COMPLETE (R232). -/
def execCopyComplete (uid tl : Nat) (s : State) : Host.Outcome State Fault Refusal :=
  unitEvent uid s (fun s =>
    match headCopy s tl with
    | none => none
    | some c => if c.ended then some (settle (finishCopy s c)) else none)

/-- Every copy of the current unit that no fault stops runs to completion (R233, R340). -/
def finishCopies : Nat → State → State
  | 0, s => s
  | n + 1, s =>
    match s.u.copies.find? (fun c => (getCsusp s c.tl).isNone && headCopy s c.tl == some c) with
    | none => s
    | some c =>
      let s1 := if c.ended then s else runCopy s c
      match headCopy s1 c.tl with
      | some d => finishCopies n (if d.ended then finishCopy s1 d else s1)
      | none => s1

end Sys2Proof.Machine
end

