-- ==== Sys2Proof/Machine/Poly.lean ====
section
/-! DEFINITION. The polynomials of function registers (R133 to R141): exact fractions, Legendre and Gauss-Lobatto-Legendre
matrices, and the linear maps between representations.

An irrational node stands as a fraction close to it. A result is computed with ever closer nodes until its rounding is
settled: either no multiple of `2^-gridBits`, where every representable value and every tie of rounding lies, is within the
nodes' error, or the result is so close to one that it can only be equal to it (log entry 22). -/

namespace Sys2Proof.Machine

open Sys2Proof

/-- A fraction; the denominator is not 0. -/
structure Frac where
  num : Int
  den : Nat
  deriving DecidableEq, Repr

/-- A fraction in lowest terms. -/
def Frac.norm (num : Int) (den : Nat) : Frac :=
  let g := Nat.gcd num.natAbs den
  if g ≤ 1 then { num, den } else { num := num / (g : Int), den := den / g }

def Frac.ofInt (x : Int) : Frac := { num := x, den := 1 }

def Frac.add (x y : Frac) : Frac :=
  if x.num = 0 then y else if y.num = 0 then x
  else if x.den = y.den then .norm (x.num + y.num) x.den
  else .norm (x.num * (y.den : Int) + y.num * (x.den : Int)) (x.den * y.den)

def Frac.neg (x : Frac) : Frac := { x with num := -x.num }

def Frac.mul (x y : Frac) : Frac :=
  if x.num = 0 ∨ y.num = 0 then .ofInt 0 else .norm (x.num * y.num) (x.den * y.den)

/-- Divide by a positive number. -/
def Frac.divNat (x : Frac) (n : Nat) : Frac := .norm x.num (x.den * n)

/-- The magnitude. -/
def Frac.abs (x : Frac) : Frac := { x with num := (x.num.natAbs : Int) }

def Frac.lt (x y : Frac) : Bool := decide (x.num * (y.den : Int) < y.num * (x.den : Int))

def Frac.max (x y : Frac) : Frac := if x.lt y then y else x

/-- The finite value of a code; 0 for a NaN or an infinity. -/
def Frac.ofExact (x : Exact) : Frac :=
  let v := x.scaled
  if 0 ≤ v.2 then { num := v.1 * ((2 ^ v.2.toNat : Nat) : Int), den := 1 } else .norm v.1 (2 ^ (-v.2).toNat)

/-- A fraction as an exact value. -/
def Frac.toExact (x : Frac) : Exact :=
  if x.num = 0 then .zero false else divVal (decide (x.num < 0)) x.num.natAbs 0 x.den 0 quotBits

/-- The square root of a fraction that is not negative. -/
def Frac.sqrt (x : Frac) : Exact :=
  if x.num ≤ 0 then .zero false
  else
    -- a shift that leaves the quotient more bits than any rounding needs
    let k := quotBits + x.den.log2
    let n := x.num.natAbs * 2 ^ (2 * k)
    let r := isqrt (n / x.den)
    .val false r (-(k : Int)) (r * r * x.den != n)

/-- The sum of the products of two lists. -/
def dot : List Frac → List Frac → Frac
  | x :: xs, y :: ys => (x.mul y).add (dot xs ys)
  | _, _ => .ofInt 0

/-! ### Legendre polynomials (R133) -/

/-- P_n to P_0 at a fraction, by the three-term recurrence. -/
def legendreDown (x : Frac) : Nat → List Frac
  | 0 => [.ofInt 1]
  | n + 1 =>
    match legendreDown x n with
    | [_] => [x, .ofInt 1]
    | cur :: before :: rest =>
      (((x.mul cur).mul (.ofInt (2 * n + 1))).add (before.mul (.ofInt (-(n : Int))))).divNat (n + 1)
        :: cur :: before :: rest
    | [] => []

/-- P_0 to P_n at a fraction. -/
def legendreAt (x : Frac) (n : Nat) : List Frac := (legendreDown x n).reverse

/-- The product of x and a polynomial given by its monomial coefficients. -/
def shiftUp (c : List Frac) : List Frac := .ofInt 0 :: c

/-- The sum of two coefficient lists. -/
def addLists : List Frac → List Frac → List Frac
  | x :: xs, y :: ys => x.add y :: addLists xs ys
  | [], ys => ys
  | xs, [] => xs

/-- A coefficient list scaled. -/
def scaleList (k : Frac) (c : List Frac) : List Frac := c.map (fun x => k.mul x)

/-- Monomial coefficients of P_n down to P_0. -/
def legendreMonoDown : Nat → List (List Frac)
  | 0 => [[.ofInt 1]]
  | n + 1 =>
    match legendreMonoDown n with
    | [_] => [[.ofInt 0, .ofInt 1], [.ofInt 1]]
    | cur :: before :: rest =>
      (addLists (scaleList (.norm (2 * n + 1) (n + 1)) (shiftUp cur)) (scaleList (.norm (-(n : Int)) (n + 1)) before))
        :: cur :: before :: rest
    | [] => []

/-- The product of x and an expansion in Legendre polynomials: x P_k = ((k+1) P_(k+1) + k P_(k-1)) / (2k+1). -/
def legendreShift (c : List Frac) : List Frac :=
  (List.range (c.length + 1)).map (fun k =>
    let below := if k = 0 then Frac.ofInt 0 else (c.getD (k - 1) (.ofInt 0)).mul (.norm k (2 * k - 1))
    below.add ((c.getD (k + 1) (.ofInt 0)).mul (.norm (k + 1) (2 * k + 3))))

/-- Legendre expansions of x^n down to 1. -/
def powersDown : Nat → List (List Frac)
  | 0 => [[.ofInt 1]]
  | n + 1 =>
    match powersDown n with
    | [] => []
    | c :: rest => legendreShift c :: c :: rest

/-- The matrix whose columns are given, with `rows` rows. -/
def ofColumns (rows : Nat) (cols : List (List Frac)) : List (List Frac) :=
  (List.range rows).map (fun r => cols.map (fun c => c.getD r (.ofInt 0)))

/-- From Legendre to monomial coefficients, degree n. -/
def toMono (n : Nat) : List (List Frac) := ofColumns (n + 1) (legendreMonoDown n).reverse

/-- From monomial to Legendre coefficients, degree n. -/
def fromMono (n : Nat) : List (List Frac) := ofColumns (n + 1) (powersDown n).reverse

/-- The matrix with the given entries. -/
def matrix (rows cols : Nat) (e : Nat → Nat → Frac) : List (List Frac) :=
  (List.range rows).map (fun r => (List.range cols).map (fun c => e r c))

/-- A change of degree of a modal expansion: raising appends zero coefficients, lowering drops terms (R140). -/
def resizeMatrix (src dst : Nat) : List (List Frac) :=
  matrix (dst + 1) (src + 1) (fun r c => .ofInt (if r = c then 1 else 0))

/-- The derivative of a modal expansion, kept at its degree (R154): P_j' sums (2k+1) P_k over k below j with j - k odd. -/
def diffMatrix (p : Nat) : List (List Frac) :=
  matrix (p + 1) (p + 1) (fun k j => .ofInt (if k < j ∧ (j - k) % 2 = 1 then 2 * k + 1 else 0))

/-- The antiderivative that vanishes at -1 (R154): P_0 gives P_0 + P_1, P_j gives (P_(j+1) - P_(j-1)) / (2j+1). -/
def intMatrix (p : Nat) : List (List Frac) :=
  matrix (p + 2) (p + 1) (fun k j =>
    if j = 0 then .ofInt (if k ≤ 1 then 1 else 0)
    else if k = j + 1 then .norm 1 (2 * j + 1)
    else if k + 1 = j then .norm (-1) (2 * j + 1)
    else .ofInt 0)

/-! ### Gauss-Lobatto-Legendre nodes (R133) -/

/-- The bits of a node's first approximation. -/
def nodeBits : Nat := 6700

/-- The grid of representable values and ties: multiples of `2^-1100` hold the halves of FP64's least subnormal. -/
def gridBits : Nat := 1100

/-- P_n to P_0 at `x / 2^bits`, in units of `2^-bits`. -/
def fixedDown (bits : Nat) (x : Int) : Nat → List Int
  | 0 => [((2 ^ bits : Nat) : Int)]
  | n + 1 =>
    match fixedDown bits x n with
    | [one] => [x, one]
    | cur :: before :: rest =>
      ((2 * (n : Int) + 1) * x * cur / ((2 ^ bits : Nat) : Int) - (n : Int) * before) / ((n : Int) + 1) :: cur :: before :: rest
    | [] => []

/-- x P_p - P_(p-1) at a fixed-point number: a zero at each interior node. -/
def nodeFun (bits p : Nat) (x : Int) : Int :=
  match fixedDown bits x p with
  | cur :: before :: _ => x * cur / ((2 ^ bits : Nat) : Int) - before
  | _ => 0

/-- One step of Newton's iteration: the derivative is (p+1) P_p. -/
def newton (bits p : Nat) (x : Int) : Int :=
  match fixedDown bits x p with
  | cur :: before :: _ =>
    let g := x * cur / ((2 ^ bits : Nat) : Int) - before
    if cur = 0 then x else x - g * ((2 ^ bits : Nat) : Int) / (((p : Int) + 1) * cur)
  | _ => x

/-- Iterate a map. -/
def iter {α : Type} (g : α → α) : Nat → α → α
  | 0, x => x
  | n + 1, x => iter g n (g x)

/-- Halve a bracket of a sign change. -/
def bisect (p : Nat) (b : Int × Int) : Int × Int :=
  let m := (b.1 + b.2) / 2
  if decide (0 ≤ nodeFun 64 p b.1) == decide (0 ≤ nodeFun 64 p m) then (m, b.2) else (b.1, m)

/-- Brackets of the interior nodes of degree p on a grid of 1/256, ascending, in units of `2^-64`. -/
def nodeBrackets (p : Nat) : List (Int × Int) :=
  let at_ (i : Nat) : Int := ((i : Int) - 256) * ((2 ^ 56 : Nat) : Int)
  ((List.range 510).map (fun i => (at_ (i + 1), at_ (i + 2)))).filter (fun b =>
    decide (0 ≤ nodeFun 64 p b.1) != decide (0 ≤ nodeFun 64 p b.2))

/-- A node in units of `2^-bits` from a start in units of `2^-64`: Newton's iteration at half the bits, then at all. -/
def nodeFrom (p : Nat) (start : Int) : Nat → Nat → Int
  | 0, bits => iter (newton bits p) 16 (start * ((2 ^ (bits - 64) : Nat) : Int))
  | n + 1, bits =>
    if bits ≤ 1024 then iter (newton bits p) 16 (start * ((2 ^ (bits - 64) : Nat) : Int))
    else
      let half := bits / 2 + 64
      iter (newton bits p) 2 (nodeFrom p start n half * ((2 ^ (bits - half) : Nat) : Int))

/-- The interior nodes in units of `2^-bits`. -/
def interiorNodes (bits p : Nat) : List Int :=
  (nodeBrackets p).map (fun b =>
    let c := iter (bisect p) 24 b
    nodeFrom p ((c.1 + c.2) / 2) bits.log2 bits)

/-- The values of P_0 to P_q at each node of the degree-m grid (R133); the degree-0 grid is the origin (R141). -/
def nodeValues (bits m q : Nat) : List (List Frac) :=
  let at_ (x : Int) : List Frac := legendreAt (.ofInt x) q
  match m with
  | 0 => [at_ 0]
  | 1 => [at_ (-1), at_ 1]
  | 2 => [at_ (-1), at_ 0, at_ 1]
  | _ =>
    at_ (-1) ::
      ((interiorNodes bits m).map (fun x => (fixedDown bits x q).reverse.map (fun v => Frac.norm v (2 ^ bits)))
        ++ [at_ 1])

/-- The coefficient of P_k in ℓ_j of the degree-p grid: (2k+1) P_k(ξ_j) / (p(p+1) P_p(ξ_j)²), and for k = p the factor
p in place of 2k+1. Rows k, columns j (R141). -/
def nodalToModal (bits p : Nat) : List (List Frac) :=
  if p = 0 then [[.ofInt 1]]
  else
    let cols := (nodeValues bits p p).map (fun v =>
      let top := v.getD p (.ofInt 1)
      (List.range (p + 1)).map (fun k =>
        let a := (v.getD k (.ofInt 0)).mul (.ofInt (if k < p then 2 * k + 1 else p))
        let sq := top.mul top
        if p ≤ 2 then (Frac.norm (a.num * (sq.den : Int)) (a.den * sq.num.natAbs)).divNat (p * (p + 1))
        else
          Frac.norm (a.num * (sq.den : Int) * ((2 ^ bits : Nat) : Int) / ((a.den * sq.num.natAbs * (p * (p + 1)) : Nat) : Int))
            (2 ^ bits)))
    ofColumns (p + 1) cols

/-! ### Tensor maps (R134) -/

/-- Apply a matrix along one axis: `lo` is the number of positions below the axis, `nin` its length, `hi` above. -/
def applyAxis (lo nin hi : Nat) (mat : List (List Frac)) (c : List Frac) : List Frac :=
  let a := c.toArray
  let nout := mat.length
  let m := mat.toArray
  (List.range (lo * nout * hi)).map (fun q =>
    let l := q % lo
    let r := q / lo % nout
    let h := q / (lo * nout)
    dot (m.getD r []) ((List.range nin).map (fun k => a.getD (l + lo * (k + nin * h)) (.ofInt 0))))

/-- Apply a matrix of `nout` rows and `nin` columns along each of `d` axes, x first. -/
def applyAll (d nin : Nat) (mat : List (List Frac)) (c : List Frac) : List Frac :=
  (List.range d).foldl (fun c ax => applyAxis (mat.length ^ ax) nin (nin ^ (d - 1 - ax)) mat c) c

/-- Apply one matrix along axis `ax` and another along the rest, x first; the two have the same shape. -/
def applyOne (d nin ax : Nat) (mat other : List (List Frac)) (c : List Frac) : List Frac :=
  (List.range d).foldl (fun c k =>
    applyAxis (mat.length ^ k) nin (nin ^ (d - 1 - k)) (if k = ax then mat else other) c) c

/-- The indices of coefficient `q` of a (d, p) polynomial, x first. -/
def coefIndices (d n q : Nat) : List Nat := (List.range d).map (fun ax => q / n ^ ax % n)

/-- The place of a coefficient of a degree-(n-1) polynomial in one of degree N-1. -/
def placeIn (d n N q : Nat) : Nat :=
  (List.range d).foldl (fun acc ax => acc + q / n ^ ax % n * N ^ ax) 0

/-- Add `v` at a place. -/
def addAt : List Frac → Nat → Frac → List Frac
  | [], _, _ => []
  | x :: xs, 0, v => x.add v :: xs
  | x :: xs, i + 1, v => x :: addAt xs i v

/-- The product of two polynomials in monomials, of degrees p and q per axis. -/
def monoMul (d p q : Nat) (a b : List Frac) : List Frac :=
  let n := p + q + 1
  let xs := a.zip (List.range a.length)
  let ys := b.zip (List.range b.length)
  xs.foldl (fun acc x =>
    if x.1.num = 0 then acc
    else ys.foldl (fun acc y =>
      if y.1.num = 0 then acc
      else addAt acc (placeIn d (p + 1) n x.2 + placeIn d (q + 1) n y.2) (x.1.mul y.1)) acc)
    (List.replicate (n ^ d) (.ofInt 0))

/-- The exact product of two modal polynomials, modal, of degree p + q. -/
def modalMul (d p q : Nat) (a b : List Frac) : List Frac :=
  applyAll d (p + q + 1) (fromMono (p + q))
    (monoMul d p q (applyAll d (p + 1) (toMono p) a) (applyAll d (q + 1) (toMono q) b))

/-- The largest magnitude of a list. -/
def maxMag (c : List Frac) : Frac := c.foldl (fun m x => m.max x.abs) (.ofInt 0)

/-- The nearest multiple of `2^-g`, ties upward. -/
def nearestGrid (g : Nat) (y : Frac) : Frac :=
  Frac.norm ((2 * y.num * ((2 ^ g : Nat) : Int) + (y.den : Int)) / (2 * (y.den : Int))) (2 ^ g)

/-! ### Settling a result (log entry 22)

A result is a polynomial, with rational coefficients, in the nodes of the grids that it uses. The automorphisms of the
field of those nodes permute the pairs of opposite nodes of each grid and the signs in each pair, so a result has at most
`symmetries` conjugates. The difference of a result and a grid point times a whole number is an algebraic integer, whose
norm is a whole number; `gapBits` bounds that number and the conjugates, so a difference below `2^-gapBits` is 0. -/

/-- The arrangements of the interior nodes of a degree-p grid that keep opposite nodes opposite. -/
def symmetries (p : Nat) : Nat := (List.range ((p - 1) / 2)).foldl (fun n k => n * (2 * (k + 1))) 1

/-- A difference between a result and a grid point is 0 or at least `2^-gapBits`: for the degrees of the grids with
irrational nodes, in `d` dimensions, and with `more` bits for coordinates. -/
def gapBits (d more : Nat) (grids : List Nat) : Nat :=
  grids.foldl (fun n p => n * symmetries p) 1
    * (8000 + more + d * (200 + grids.foldl (fun n p => n + 60 * p * p) 0))

/-- Doublings that take a number to more than another. -/
def doublings (bits need : Nat) : Nat := (need / bits).log2 + 1

/-- A value stands further from every grid point than the error of nodes of so many bits; `scale` bounds the data that
the value was formed from. -/
def isClear (bits grid : Nat) (scale y : Frac) : Bool :=
  let diff := (y.add (nearestGrid grid y).neg).abs
  !((diff.mul (.ofInt ((2 ^ (bits - 500) : Nat) : Int))).lt scale)

/-- Values computed with ever closer nodes until each is clear of the grid, or is the grid point next to it. -/
def settleValues (grid : Nat) (scale : Frac) (again : Nat → List Frac) : Nat → Nat → List Frac → List Frac
  | 0, bits, ys => ys.map (fun y => if isClear bits grid scale y then y else nearestGrid grid y)
  | n + 1, bits, ys =>
    if ys.all (isClear bits grid scale) then ys else settleValues grid scale again n (2 * bits) (again (2 * bits))

/-- Values that stand for the exact ones in every rounding and in their sign: `ys` as computed with nodes of `bits` bits,
and `again` for any number of bits. With no irrational node they are exact. -/
def exactValues (d more grid bits : Nat) (grids : List Nat) (scale : Frac) (ys : List Frac) (again : Nat → List Frac) :
    List Frac :=
  if grids.isEmpty then ys
  else settleValues grid scale again (doublings bits (gapBits d more grids + more + 3000)) bits ys

end Sys2Proof.Machine
end

