-- ==== Sys2Proof/Machine/Function.lean ====
section
/-! DEFINITION. The function range 0x80 to 0x92 and the function pool (R129 to R160). -/

namespace Sys2Proof.Machine

open Sys2Proof

/-! ### Shapes and the pool (R129 to R132, R142 to R145) -/

/-- A shape (R129). -/
structure Shape where
  d : Nat
  p : Nat
  nodal : Bool
  f64 : Bool
  deriving DecidableEq, Repr

/-- The shape of a register. -/
def FnReg.shape (r : FnReg) : Shape := { d := r.d, p := r.p, nodal := r.nodal, f64 := r.f64 }

/-- The coefficients of an element. -/
def Shape.count (h : Shape) : Nat := (h.p + 1) ^ h.d

/-- The bytes of a coefficient. -/
def Shape.bytes (h : Shape) : Nat := if h.f64 then 8 else 4

/-- The format of a coefficient. -/
def Shape.fmt (h : Shape) : FloatFmt := if h.f64 then .fp64 else .fp32

/-- The cap on a degree (R131). -/
def degreeCap (d : Nat) : Nat := if d = 1 then 15 else if d = 2 then 11 else 7

/-- Granules of a body under a vector length (R143). -/
def Shape.granules (h : Shape) (vl : Nat) : Nat := if h.d = 0 then 0 else ceilDiv (vl * h.count * h.bytes) 4096

/-- The header of a register (R129). -/
def FnReg.header (r : FnReg) : W64 :=
  BitVec.ofNat 64 (r.d + r.p * 2 ^ 4 + (if r.nodal then 2 ^ 8 else 0) + (if r.f64 then 2 ^ 9 else 0)
    + r.nelem * 2 ^ 16 + r.gran * 2 ^ 32)

/-- FN[n]. -/
def getFn (s : State) (n : Field) : FnReg := if h : n.toNat < 16 then s.t.arch.fn[n.toNat] else .empty

/-- The shape that a shape word names; none where it raises Configuration (R130). D of 0 is refused. -/
def shapeOf (w : W64) : Option Shape :=
  let x := w.toNat
  let d := bitsAt x 0 2
  let h : Shape := { d, p := bitsAt x 4 4, nodal := bitsAt x 8 1 == 1, f64 := bitsAt x 9 1 == 1 }
  if bitsAt x 10 54 ≠ 0 ∨ bitsAt x 2 2 ≠ 0 ∨ d = 0 ∨ (h.nodal ∧ h.p = 0) then none else some h

/-- Shadow granules of the open strip (R144). -/
def fnShadow (s : State) : Nat :=
  s.t.strip.fnWritten.foldl (fun acc n => acc + (s.t.ckpt.fn.toList.getD n .empty).gran) 0

/-- The pool register (R145). -/
def poolWord (s : State) : W64 :=
  BitVec.ofNat 64 (fnShare s + fnUsed s.t.arch * 2 ^ 8 + fnShadow s * 2 ^ 16 + s.t.poolNeed * 2 ^ 32)

/-- Granules that a write to a register needs beyond those it releases (R144). -/
def fnNeed (s : State) (n : Field) (gran : Nat) : Nat :=
  gran - (if s.t.strip.fnWritten.contains n.toNat then (getFn s n).gran else 0)

/-- The pool holds too few free granules for a result (R144). -/
def poolShort (s : State) (n : Field) (gran : Nat) : Bool :=
  gran != 0 && decide (fnShare s - fnUsed s.t.arch - fnShadow s < fnNeed s n gran)

/-- Pool exhausted: NEED keeps the result's granules through the rollback (R144, R145). -/
def poolExhausted (gran : Nat) (s : State) : Res :=
  faultR 0x09 (BitVec.ofNat 64 gran) { s with t := { s.t with poolNeed := gran } }

/-- A function register takes a value; it counts as written in the strip (R144). -/
def setFn (s : State) (n : Field) (r : FnReg) : State :=
  if h : n.toNat < 16 then
    let s1 := withArch s { s.t.arch with fn := s.t.arch.fn.set n.toNat r h }
    if s1.t.strip.fnWritten.contains n.toNat then s1
    else { s1 with t := { s1.t with strip := { s1.t.strip with fnWritten := s1.t.strip.fnWritten ++ [n.toNat] } } }
  else s

/-! ### Elements (R132, R135, R136, R138) -/

/-- A list cut into pieces of `n`. -/
def chunk (n : Nat) : Nat → List Nat → List (List Nat)
  | 0, _ => []
  | k + 1, xs => xs.take n :: chunk n k (xs.drop n)

/-- The coefficients of each element slot held. -/
def FnReg.rows (r : FnReg) : Array (List Nat) := (chunk r.shape.count r.nelem r.coefs).toArray

/-- The zero polynomial's codes. -/
def Shape.zeros (h : Shape) : List Nat := List.replicate h.count 0

/-- The canonical NaN in every coefficient (R136). -/
def Shape.nans (h : Shape) : List Nat := List.replicate h.count h.fmt.nanCode

/-- Exact values of codes. -/
def Shape.values (h : Shape) (cs : List Nat) : List Exact := cs.map h.fmt.decode

/-- A NaN or an infinity among values. -/
def anyBad (xs : List Exact) : Bool := xs.any (fun x => x.isNan || x.isInf)

/-- The fractions of finite values. -/
def fracs (xs : List Exact) : List Frac := xs.map Frac.ofExact

/-- The modal coefficients of a polynomial given in a shape. -/
def Shape.modal (h : Shape) (tm : List (List Frac)) (c : List Frac) : List Frac :=
  if h.nodal then applyAll h.d (h.p + 1) tm c else c

/-- The matrix to modal coefficients for a nodal shape (R141), with nodes of so many bits. -/
def Shape.tmAt (h : Shape) (bits : Nat) : List (List Frac) := if h.nodal then nodalToModal bits h.p else []

/-- The matrix of values at the nodes of a nodal shape, with nodes of so many bits. -/
def Shape.vmAt (h : Shape) (bits : Nat) : List (List Frac) := if h.nodal then nodeValues bits h.p h.p else []

/-- The matrices of a shape that are computed first. -/
def Shape.tm (h : Shape) : List (List Frac) := h.tmAt nodeBits
def Shape.vm (h : Shape) : List (List Frac) := h.vmAt nodeBits

/-- The degrees of the grids with irrational nodes among shapes. -/
def gridsOf (hs : List Shape) : List Nat := ((hs.filter (fun h => h.nodal && decide (3 ≤ h.p))).map (fun h => h.p)).eraseDups

/-- The coefficients that represent a modal polynomial of the shape's degree. -/
def Shape.spread (h : Shape) (vm : List (List Frac)) (c : List Frac) : List Frac :=
  if h.nodal then applyAll h.d (h.p + 1) vm c else c

/-- Round each exact coefficient once, by RNE; an exact zero is +0 (R135). -/
def Shape.roundAll (h : Shape) (c : List Frac) : List Nat := c.map (fun y => h.fmt.round y.toExact .rne)

/-- Round each coefficient of a result over the nodes of the listed shapes and of its own (R135): `ys` as computed first,
and `again` for nodes of any number of bits. -/
def Shape.codes (h : Shape) (hs : List Shape) (scale : Frac) (ys : List Frac) (again : Nat → List Frac) : List Nat :=
  h.roundAll (exactValues h.d 0 gridBits nodeBits (gridsOf (h :: hs)) scale ys again)

/-- The places, in a polynomial of degree `dst`, that one of degree `src` fills, as the source's places; none elsewhere. -/
def resizePlaces (d src dst : Nat) : List (Option Nat) :=
  (List.range ((dst + 1) ^ d)).map (fun q =>
    let idx := coefIndices d (dst + 1) q
    if idx.all (fun i => decide (i ≤ src)) then some (placeIn d (dst + 1) (src + 1) q) else none)

/-- The coefficients of a polynomial at another degree in the same modal basis (R140). -/
def resizeCodes {α : Type} (d src dst : Nat) (zero : α) (c : List α) : List α :=
  let a := c.toArray
  (resizePlaces d src dst).map (fun q => match q with | some i => a.getD i zero | none => zero)

/-- Both shapes give the same functions the same coefficients, up to a change of modal degree. -/
def sameBasis (src dst : Shape) : Bool := src.nodal == dst.nodal && (!src.nodal || src.p == dst.p)

/-- One polynomial represented in another shape of its dimension (R135, R138, R156). Coefficients that the result keeps
in the same basis are rounded as they are. -/
def convertFn (src dst : Shape) (tm vm : List (List Frac)) (cs : List Nat) : List Nat :=
  let xs := src.values cs
  if sameBasis src dst then
    let kept := resizeCodes src.d src.p dst.p (.zero false) xs
    if anyBad kept then dst.nans else dst.roundAll (fracs kept)
  else
    let used := if src.nodal then xs else resizeCodes src.d src.p (min src.p dst.p) (.zero false) xs
    if anyBad used then dst.nans
    else
      let c := fracs xs
      let go (tm vm : List (List Frac)) := dst.spread vm (resizeCodes src.d src.p dst.p (.ofInt 0) (src.modal tm c))
      dst.codes [src] (maxMag c) (go tm vm) (fun b => go (src.tmAt b) (dst.vmAt b))

/-- What an inactive element of a function register holds once the register takes a shape (R138). -/
def keptFn (old : FnReg) (rows : Array (List Nat)) (h : Shape) (tm vm : List (List Frac)) (i : Nat) : List Nat :=
  if old.d ≠ h.d ∨ old.nelem ≤ i then h.zeros
  else if old.shape = h then rows.getD i []
  else convertFn old.shape h tm vm (rows.getD i [])

/-- Write a function register: a value for each active element, R138 for the rest. `value` is given the element. -/
def putFn (f : Form) (s : State) (n : Field) (h : Shape) (value : Nat → List Nat) : State :=
  let old := getFn s n
  let rows := old.rows
  let vl := s.t.arch.vl
  let act := activeBits s f
  let tm := old.shape.tm
  let vm := h.vm
  let kept (i : Nat) : List Nat := keptFn old rows h tm vm i
  let coefs := (List.range vl).flatMap (fun i => if bitsAt act i 1 = 1 then value i else kept i)
  setFn s n { d := h.d, p := h.p, nodal := h.nodal, f64 := h.f64, nelem := vl, gran := h.granules vl, coefs }

/-- The checks 3 and 4 of R146 on a result shape, after those of Configuration, and then the write. -/
def writeFn (f : Form) (s : State) (h : Shape) (value : Nat → List Nat) : Res :=
  if degreeCap h.d < h.p then faultR 0x11 (BitVec.ofNat 64 h.p) s
  else
    let g := h.granules s.t.arch.vl
    if poolShort s f.d g then poolExhausted g s
    else .done (nextPc (putFn f s f.d h value))

/-- Element `i` of a source; slots it does not hold read as the zero polynomial (R132). -/
def rowOf (h : Shape) (rows : Array (List Nat)) (i : Nat) : List Nat := rows.getD i h.zeros

/-! ### fnset, fnld, fnst, fnmov (R148 to R150) -/

/-- The coefficients of the constant with a code (R148). -/
def constFn (h : Shape) (c : Nat) : List Nat :=
  if anyBad (h.values [c]) then h.nans
  else if h.nodal then List.replicate h.count c
  else c :: List.replicate (h.count - 1) 0

/-- FNSET (R148). -/
def execFnset (f : Form) (s : State) : Host.Outcome State Fault Refusal :=
  runForm 0x80 f s (fun s =>
    let w := getX s f.a
    if w = 0 then .done (nextPc (setFn s f.d .empty))
    else
      match shapeOf w with
      | none => config s
      | some h =>
        let row := constFn h ((getX s f.b).toNat % 2 ^ (8 * h.bytes))
        writeFn f s h (fun _ => row))

/-- The elements of FNLD and FNST in memory (R149). -/
def fnElemAt (base : W64) (h : Shape) (i : Nat) : ElemAt :=
  { idx := i, va := wrapAddr ((base.toNat + i * (h.count * h.bytes) : Nat) : Int), bit := 0, bits := 8 * h.count * h.bytes }

/-- FNLD (R149): the memory faults come after the pool's (R146). -/
def execFnld (f : Form) (s : State) : Host.Outcome State Fault Refusal :=
  runForm 0x81 f s (fun s => afterEpoch s (fun s =>
    match shapeOf (getX s f.b) with
    | none => config s
    | some h =>
      let base := getX s f.a
      let act := activeList s f
      let g := h.granules s.t.arch.vl
      if degreeCap h.d < h.p then faultR 0x11 (BitVec.ofNat 64 h.p) s
      else if poolShort s f.d g then poolExhausted g s
      else if !act.isEmpty ∧ base.toNat % h.bytes ≠ 0 then faultR 0x06 base s
      else
        match reachElems (threadSpace s) (act.map (fnElemAt base h)) s with
        | .error (e, i) => memFaultR e i s
        | .ok (locs, s1) =>
          let s2 := loadLines (locs.flatMap (fun e => e.locs)) s1
          let vals := locs.map (fun e => (e.at_.idx, unpack (8 * h.bytes) h.count (viewValue s2 e.locs)))
          .done (nextPc (putFn f s2 f.d h (fun i => (vals.lookup i).getD h.zeros)))))

/-- FNST (R149). -/
def execFnst (f : Form) (s : State) : Host.Outcome State Fault Refusal :=
  runForm 0x82 f s (fun s =>
    let r := getFn s f.d
    let h := r.shape
    let rows := r.rows
    let base := getX s f.a
    let act := activeList s f
    let elems (locs : List ElemLoc) : Store :=
      makeStore f.cls.toNat (locs.map (fun e => elemStore e (pack (8 * h.bytes) (rowOf h rows e.at_.idx))))
    let odd : Option Cause := if !act.isEmpty ∧ base.toNat % h.bytes ≠ 0 then some (.of 0x06 base 0) else none
    if r.d = 0 then config s
    else
      storeElems odd (fun _ => true) (act.map (fnElemAt base h)) elems s (fun st s1 =>
        .done (afterStore st (nextPc (addStore s1 st)))))

/-- FNMOV (R150): bits unchanged. -/
def execFnmov (f : Form) (s : State) : Host.Outcome State Fault Refusal :=
  runForm 0x83 f s (fun s =>
    let a := getFn s f.a
    let rows := a.rows
    if a.d = 0 then config s else writeFn f s a.shape (rowOf a.shape rows))

/-! ### Sums, scaling and products (R151 to R153, R141) -/

/-- The result shape of two sources at a degree (R137): none where one is empty or the dimensions differ (R132). -/
def pairShape (a b : FnReg) (p : Nat) : Option Shape :=
  if a.d = 0 ∨ b.d = 0 ∨ a.d ≠ b.d then none else some { d := a.d, p, nodal := a.nodal, f64 := a.f64 || b.f64 }

/-- `x·f + y·g` exactly, rounded once per coefficient (R151, R153). DEDUCED: with sources of the result's basis a zero sum has
the sign that R60 gives it, -0 of two terms -0 (log entry 18). -/
def linearFn (h fa fb : Shape) (tma tmb vm : List (List Frac)) (x y : Exact) (ca cb : List Nat) : List Nat :=
  let va := fa.values ca
  let vb := fb.values cb
  if anyBad va || anyBad vb || anyBad [x, y] then h.nans
  else if sameBasis fa h && sameBasis fb h then
    let a := resizeCodes h.d fa.p h.p (.zero false) va
    let b := resizeCodes h.d fb.p h.p (.zero false) vb
    (a.zip b).map (fun e => h.fmt.round ((x.mul e.1).add (y.mul e.2) .rne) .rne)
  else
    let fx := Frac.ofExact x
    let fy := Frac.ofExact y
    let a := scaleList fx (fracs va)
    let b := scaleList fy (fracs vb)
    let m (sh : Shape) (tm : List (List Frac)) (c : List Frac) :=
      resizeCodes h.d sh.p h.p (.ofInt 0) (sh.modal tm c)
    let go (tma tmb vm : List (List Frac)) := h.spread vm (addLists (m fa tma a) (m fb tmb b))
    h.codes [fa, fb] (maxMag (a ++ b)) (go tma tmb vm) (fun n => go (fa.tmAt n) (fb.tmAt n) (h.vmAt n))

/-- The value +1 or -1. -/
def unitValue (neg : Bool) : Exact := .val neg 1 0 false

/-- FNADD and FNSUB (R151). -/
def sumFn (f : Form) (s : State) (neg : Bool) : Res :=
  let a := getFn s f.a
  let b := getFn s f.b
  match pairShape a b (max a.p b.p) with
  | none => config s
  | some h =>
    let ra := a.rows
    let rb := b.rows
    let tma := a.shape.tm
    let tmb := b.shape.tm
    let vm := h.vm
    writeFn f s h (fun i => linearFn h a.shape b.shape tma tmb vm (unitValue false) (unitValue neg)
      (rowOf a.shape ra i) (rowOf b.shape rb i))

/-- FNADD (R151). -/
def execFnadd (f : Form) (s : State) : Host.Outcome State Fault Refusal := runForm 0x84 f s (fun s => sumFn f s false)
/-- FNSUB (R151). -/
def execFnsub (f : Form) (s : State) : Host.Outcome State Fault Refusal := runForm 0x85 f s (fun s => sumFn f s true)

/-- The exact product at a result shape, truncated where its degree is lower (R141 `.x` and `.t`). -/
def productFn (h fa fb : Shape) (tma tmb vm : List (List Frac)) (ca cb : List Nat) : List Nat :=
  let va := fa.values ca
  let vb := fb.values cb
  if anyBad va || anyBad vb then h.nans
  else
    let a := fracs va
    let b := fracs vb
    let go (tma tmb vm : List (List Frac)) :=
      h.spread vm (resizeCodes h.d (fa.p + fb.p) h.p (.ofInt 0)
        (modalMul h.d fa.p fb.p (fa.modal tma a) (fb.modal tmb b)))
    h.codes [fa, fb] ((maxMag a).mul (maxMag b)) (go tma tmb vm) (fun n => go (fa.tmAt n) (fb.tmAt n) (h.vmAt n))

/-- A product and a sum in FP64, each code rounded once (R141). -/
def fma64 (a b c : Nat) : Nat :=
  FloatFmt.fp64.round (((FloatFmt.fp64.decode a).mul (FloatFmt.fp64.decode b)).add (FloatFmt.fp64.decode c) .rne) .rne

/-- Values over the nodes of grids, rounded into FP64. -/
def fp64Codes (d : Nat) (grids : List Nat) (scale : Frac) (ys : List Frac) (again : Nat → List Frac) : List Nat :=
  (exactValues d 0 gridBits nodeBits grids scale ys again).map (fun y => FloatFmt.fp64.round y.toExact .rne)

/-- The degree of a grid with irrational nodes. -/
def gridOf (m : Nat) : List Nat := if 3 ≤ m then [m] else []

/-- Tm of the degree-m grid, rounded into FP64 (R141). -/
def collocationMatrix (m : Nat) : List (List Nat) :=
  let rows (n : Nat) := nodalToModal n m
  let first := rows nodeBits
  (first.zip (List.range first.length)).map (fun e =>
    fp64Codes 1 (gridOf m) (.ofInt 1) e.1 (fun n => (rows n).getD e.2 []))

/-- One line of the collocated transform: t[k] accumulates Tm[k][j] × w[j] in ascending j (R141). -/
def lineTransform (tm : List (List Nat)) (w : List Nat) : List Nat :=
  tm.map (fun row => (row.zip w).foldl (fun t e => fma64 e.1 e.2 t) 0)

/-- The transform along one axis of a grid of n points per axis. -/
def axisTransform (tm : List (List Nat)) (n d ax : Nat) (w : List Nat) : List Nat :=
  let a := w.toArray
  let lo := n ^ ax
  let hi := n ^ (d - 1 - ax)
  let lines := ((List.range (lo * hi)).map (fun q =>
    lineTransform tm ((List.range n).map (fun k => a.getD (q % lo + lo * (k + n * (q / lo))) 0)))).toArray
  (List.range (lo * n * hi)).map (fun q => (lines.getD (q % lo + lo * (q / (lo * n))) []).getD (q / lo % n) 0)

/-- The values of one source at the degree-m grid, rounded into FP64 (R141). An exact zero is +0, whatever the signs of the
zeros it was formed from (log entry 18). -/
def gridValues (h : Shape) (m : Nat) (t v : List (List Frac)) (xs : List Exact) : List Nat :=
  let c := fracs xs
  let go (t v : List (List Frac)) := applyAll h.d (h.p + 1) v (h.modal t c)
  fp64Codes h.d (gridsOf [h] ++ gridOf m).eraseDups (maxMag c) (go t v) (fun n => go (h.tmAt n) (nodeValues n m h.p))

/-- The collocated product (R141 `.c`). For degree 0 it is the product of the two constants (log entry 18). -/
def collocateFn (h fa fb : Shape) (tma tmb va vb : List (List Frac)) (tm : List (List Nat)) (ca cb : List Nat) :
    List Nat :=
  let xa := fa.values ca
  let xb := fb.values cb
  if anyBad xa || anyBad xb then h.nans
  else
    let w := ((gridValues fa h.p tma va xa).zip (gridValues fb h.p tmb vb xb)).map (fun e =>
      FloatFmt.fp64.round ((FloatFmt.fp64.decode e.1).mul (FloatFmt.fp64.decode e.2)) .rne)
    let c := if h.nodal ∨ h.p = 0 then w
      else (List.range h.d).foldl (fun w ax => axisTransform tm (h.p + 1) h.d ax w) w
    c.map (fun x => h.fmt.round (FloatFmt.fp64.decode x) .rne)

/-- FNMUL (R141, R152). Mode 3 is no valid long form. -/
def execFnmul (f : Form) (s : State) : Host.Outcome State Fault Refusal :=
  runForm 0x86 f s (fun s =>
    let a := getFn s f.a
    let b := getFn s f.b
    let mode := f.mod.toNat % 4
    match pairShape a b (if mode = 0 then a.p + b.p else max a.p b.p) with
    | none => config s
    | some h =>
      if degreeCap h.d < h.p then faultR 0x11 (BitVec.ofNat 64 h.p) s
      else
        let ra := a.rows
        let rb := b.rows
        let tma := a.shape.tm
        let tmb := b.shape.tm
        if mode = 2 then
          let va := nodeValues nodeBits h.p a.p
          let vb := nodeValues nodeBits h.p b.p
          let tm := collocationMatrix h.p
          writeFn f s h (fun i =>
            collocateFn h a.shape b.shape tma tmb va vb tm (rowOf a.shape ra i) (rowOf b.shape rb i))
        else
          let vm := h.vm
          writeFn f s h (fun i =>
            productFn h a.shape b.shape tma tmb vm (rowOf a.shape ra i) (rowOf b.shape rb i)))

/-- vtr.TYPE is f32 or f64. -/
def plainFloat (t : ElemTy) : Bool := t == .f32 || t == .f64

/-- One element scaled by a code of a vector element type (R153). DEDUCED: a zero product has the sign that R60 gives it (log
entry 18). -/
def scaleFn (h : Shape) (x : Exact) (cs : List Nat) : List Nat :=
  let va := h.values cs
  if anyBad va || anyBad [x] then h.nans else va.map (fun c => h.fmt.round (x.mul c) .rne)

/-- FNSCL (R153). The span of vb raises Configuration (R146; log entry 1). -/
def execFnscl (f : Form) (s : State) : Host.Outcome State Fault Refusal :=
  runForm 0x87 f s (fun s =>
    let t := vtrType s
    let a := getFn s f.a
    let h := a.shape
    let rows := a.rows
    if !(spanOk s f.b t.width && plainFloat t) || a.d == 0 then config s
    else writeFn f s h (fun i => scaleFn h (t.exact (getV s f.b t.width i)) (rowOf h rows i)))

/-- FNAXPY (R153). The span of vb raises Configuration (R146; log entry 1). -/
def execFnaxpy (f : Form) (s : State) : Host.Outcome State Fault Refusal :=
  runForm 0x88 f s (fun s =>
    let t := vtrType s
    let a := getFn s f.a
    let b := getFn s f.d
    if !(spanOk s f.b t.width && plainFloat t) then config s
    else
      match pairShape a b (max a.p b.p) with
      | none => config s
      | some h =>
        let ra := a.rows
        let rb := b.rows
        let tma := a.shape.tm
        let tmb := b.shape.tm
        let vm := h.vm
        writeFn f s h (fun i => linearFn h a.shape b.shape tma tmb vm (t.exact (getV s f.b t.width i))
          (unitValue false) (rowOf a.shape ra i) (rowOf b.shape rb i)))

/-! ### Derivatives, integrals, changes of shape (R154 to R159) -/

/-- The derivative along an axis of one element (R154). A modal term that does not depend on the axis leaves the result
untouched. -/
def diffFn (h : Shape) (tm vm : List (List Frac)) (ax : Nat) (cs : List Nat) : List Nat :=
  let va := h.values cs
  let n := h.p + 1
  if ((List.range h.count).zip va).any (fun e => (h.nodal || e.1 / n ^ ax % n != 0) && (e.2.isNan || e.2.isInf)) then
    h.nans
  else
    let c := fracs va
    let go (tm vm : List (List Frac)) :=
      h.spread vm (applyAxis (n ^ ax) n (n ^ (h.d - 1 - ax)) (diffMatrix h.p) (h.modal tm c))
    h.codes [] (maxMag c) (go tm vm) (fun b => go (h.tmAt b) (h.vmAt b))

/-- FNDIFF (R154). -/
def execFndiff (f : Form) (s : State) : Host.Outcome State Fault Refusal :=
  runForm 0x89 f s (fun s =>
    let a := getFn s f.a
    let h := a.shape
    let rows := a.rows
    let ax := f.b.toNat
    if a.d ≤ ax then config s
    else
      let tm := h.tm
      let vm := h.vm
      writeFn f s h (fun i => diffFn h tm vm ax (rowOf h rows i)))

/-- The integral along an axis of one element, in a shape one degree higher (R154). -/
def intFn (src h : Shape) (tm vm : List (List Frac)) (ax : Nat) (cs : List Nat) : List Nat :=
  let va := src.values cs
  if anyBad va then h.nans
  else
    let c := fracs va
    let go (tm vm : List (List Frac)) :=
      h.spread vm (applyOne src.d (src.p + 1) ax (intMatrix src.p) (resizeMatrix src.p h.p) (src.modal tm c))
    h.codes [src] (maxMag c) (go tm vm) (fun b => go (src.tmAt b) (h.vmAt b))

/-- FNINT (R154). -/
def execFnint (f : Form) (s : State) : Host.Outcome State Fault Refusal :=
  runForm 0x8A f s (fun s =>
    let a := getFn s f.a
    let src := a.shape
    let rows := a.rows
    let ax := f.b.toNat
    if a.d ≤ ax then config s
    else
      let h : Shape := { src with p := src.p + 1 }
      if degreeCap h.d < h.p then faultR 0x11 (BitVec.ofNat 64 h.p) s
      else
        let tm := src.tm
        let vm := h.vm
        writeFn f s h (fun i => intFn src h tm vm ax (rowOf src rows i)))

/-- An instruction that writes a real of each active element to a vector register (R155, R157, R158). -/
def vectorFromFn (f : Form) (s : State) (value : ElemTy → Nat → Nat) : Res :=
  let t := vtrType s
  .done (nextPc (setV s f.d t.width ((activeList s f).map (fun i => (i, value t i)))))

/-- A fraction rounded into a vector element type by RNE. -/
def roundFrac (t : ElemTy) (x : Frac) : Nat := roundTo 0 t x.toExact .rne

/-- The canonical NaN of a vector element type. -/
def nanOf (t : ElemTy) : Nat := roundTo 0 t .nan .rne

/-- The integral of one element over its box, in a vector element type (R155). -/
def quadFn (t : ElemTy) (h : Shape) (tm : List (List Frac)) (cs : List Nat) : Nat :=
  let va := h.values cs
  let used := if h.nodal then va else va.take 1
  if anyBad used then nanOf t
  else
    let c := fracs va
    let go (tm : List (List Frac)) := [((h.modal tm c).headD (.ofInt 0)).mul (.ofInt ((2 ^ h.d : Nat) : Int))]
    let v := exactValues h.d 0 gridBits nodeBits (gridsOf [h]) (maxMag c) (go tm) (fun b => go (h.tmAt b))
    roundFrac t (v.headD (.ofInt 0))

/-- FNQUAD (R155). -/
def execFnquad (f : Form) (s : State) : Host.Outcome State Fault Refusal :=
  runForm 0x8B f s (fun s =>
    let t := vtrType s
    let a := getFn s f.a
    let h := a.shape
    let rows := a.rows
    if !spanOk s f.d t.width then illegal s
    else if !plainFloat t || a.d == 0 then config s
    else
      let tm := h.tm
      vectorFromFn f s (fun t i => quadFn t h tm (rowOf h rows i)))

/-- The weights of the squares: the integral of P_a² is 2 / (2a + 1). -/
def normWeights (h : Shape) : List Frac :=
  (List.range h.count).map (fun q =>
    (coefIndices h.d (h.p + 1) q).foldl (fun acc k => acc.mul (.norm 2 (2 * k + 1))) (Frac.ofInt 1))

/-- The norm of one element, in a vector element type (R155). -/
def normFn (t : ElemTy) (h : Shape) (tm : List (List Frac)) (wts : List Frac) (cs : List Nat) : Nat :=
  let va := h.values cs
  if anyBad va then nanOf t
  else
    let c := fracs va
    let go (tm : List (List Frac)) := [dot wts ((h.modal tm c).map (fun x => x.mul x))]
    let top := maxMag c
    let v := exactValues h.d 0 (2 * gridBits) nodeBits (gridsOf [h]) (top.mul top) (go tm) (fun b => go (h.tmAt b))
    roundTo 0 t (v.headD (.ofInt 0)).sqrt .rne

/-- FNNORM (R155). -/
def execFnnorm (f : Form) (s : State) : Host.Outcome State Fault Refusal :=
  runForm 0x92 f s (fun s =>
    let t := vtrType s
    let a := getFn s f.a
    let h := a.shape
    let rows := a.rows
    if !spanOk s f.d t.width then illegal s
    else if !plainFloat t || a.d == 0 then config s
    else
      let tm := h.tm
      let wts := normWeights h
      vectorFromFn f s (fun t i => normFn t h tm wts (rowOf h rows i)))

/-- FNPROJ (R156). -/
def execFnproj (f : Form) (s : State) : Host.Outcome State Fault Refusal :=
  runForm 0x8C f s (fun s =>
    let a := getFn s f.a
    let rows := a.rows
    let q := (getX s f.b).toNat
    if a.d = 0 ∨ (a.nodal ∧ q = 0) then config s
    else if 15 < q ∨ degreeCap a.d < q then faultR 0x11 (getX s f.b) s
    else
      let h : Shape := { a.shape with p := q }
      let tm := a.shape.tm
      let vm := h.vm
      writeFn f s h (fun i => convertFn a.shape h tm vm (rowOf a.shape rows i)))

/-- FNBASIS (R156). -/
def execFnbasis (f : Form) (s : State) : Host.Outcome State Fault Refusal :=
  runForm 0x8D f s (fun s =>
    let a := getFn s f.a
    let rows := a.rows
    let q := (getX s f.b).toNat
    if a.d = 0 ∨ 4 ≤ q ∨ (q % 2 = 1 ∧ a.p = 0) then config s
    else
      let h : Shape := { a.shape with nodal := q % 2 == 1, f64 := q / 2 == 1 }
      let tm := a.shape.tm
      let vm := h.vm
      writeFn f s h (fun i => convertFn a.shape h tm vm (rowOf a.shape rows i)))

/-- The row that fixes an axis at -1 or +1: the end node, or the sum of the Legendre values. -/
def traceRow (h : Shape) (hi : Bool) : List (List Frac) :=
  matrix 1 (h.p + 1) (fun _ k =>
    .ofInt (if h.nodal then (if k = (if hi then h.p else 0) then 1 else 0) else if hi || k % 2 == 0 then 1 else -1))

/-- The coefficients of one element's face; none where a coefficient that counts is a NaN or an infinity. Of a nodal source
only the coefficients on the face count (R136). -/
def faceFn (h : Shape) (ax : Nat) (hi : Bool) (cs : List Nat) : Option (List Frac) :=
  let va := h.values cs
  let n := h.p + 1
  if ((List.range h.count).zip va).any (fun e =>
      (!h.nodal || e.1 / n ^ ax % n == (if hi then h.p else 0)) && (e.2.isNan || e.2.isInf)) then none
  else
    let c := fracs va
    some (applyAxis (n ^ ax) n (n ^ (h.d - 1 - ax)) (traceRow h hi) c)

/-- A trace in one dimension, a real in a vector element type (R157). -/
def endValue (t : ElemTy) (h : Shape) (ax : Nat) (hi : Bool) (cs : List Nat) : Nat :=
  match faceFn h ax hi cs with
  | none => nanOf t
  | some c => roundFrac t (c.headD (.ofInt 0))

/-- A trace in more dimensions, in the shape of the face (R157). -/
def traceFn (h g : Shape) (ax : Nat) (hi : Bool) (cs : List Nat) : List Nat :=
  match faceFn h ax hi cs with
  | none => g.nans
  | some c => g.roundAll c

/-- FNTRACE (R157). -/
def execFntrace (f : Form) (s : State) : Host.Outcome State Fault Refusal :=
  runForm 0x8E f s (fun s =>
    let a := getFn s f.a
    let h := a.shape
    let rows := a.rows
    let ax := f.mod.toNat / 2 % 4
    let hi := f.mod.toNat % 2 == 1
    if a.d = 0 then config s
    else if a.d = 1 then
      let t := vtrType s
      if s.t.arch.vnreg ≤ f.d.toNat || !spanOk s f.d t.width then illegal s
      else if !plainFloat t || a.d ≤ ax then config s
      else vectorFromFn f s (fun t i => endValue t h ax hi (rowOf h rows i))
    else if 15 < f.d.toNat then illegal s
    else if a.d ≤ ax then config s
    else
      let g : Shape := { h with d := h.d - 1 }
      writeFn f s g (fun i => traceFn h g ax hi (rowOf h rows i)))

/-- The magnitude of a list of coordinates in bits, and the bits that they are written in (log entry 22). -/
def magBits (xs : List Frac) : Nat := xs.foldl (fun m x => max m (x.num.natAbs.log2 + 1 - x.den.log2)) 0
def sizeBits (xs : List Frac) : Nat := xs.foldl (fun m x => max m (x.num.natAbs.log2 + x.den.log2 + 2)) 0

/-- The value of one element at a point, in a vector element type (R158). -/
def evalFn (t : ElemTy) (h : Shape) (tm : List (List Frac)) (cs point : List Nat) : Nat :=
  let va := h.values cs
  let pts := point.map t.exact
  if anyBad va || anyBad pts then nanOf t
  else
    let c := fracs va
    let xs := fracs pts
    let bits := nodeBits + h.d * h.p * magBits xs
    let scale := xs.foldl (fun m x =>
      (List.range h.p).foldl (fun m _ => m.mul (Frac.max (.ofInt 1) x.abs)) m) (maxMag c)
    let go (tm : List (List Frac)) : List Frac := (xs.zip (List.range h.d)).foldl (fun c e =>
      applyAxis 1 (h.p + 1) ((h.p + 1) ^ (h.d - 1 - e.2)) [legendreAt e.1 h.p] c) (h.modal tm c)
    let v := exactValues h.d (h.d * h.p * sizeBits xs) gridBits bits (gridsOf [h]) scale
      (go (if bits = nodeBits then tm else h.tmAt bits)) (fun b => go (h.tmAt b))
    roundFrac t (v.headD (.ofInt 0))

/-- The coordinates of an element's point: D groups of registers from vb on (R158). -/
def pointOf (f : Form) (s : State) (w d i : Nat) : List Nat :=
  (List.range d).map (fun k => getV s (f.b + BitVec.ofNat 7 (k * spanOf s w)) w i)

/-- FNEVAL (R158). -/
def execFneval (f : Form) (s : State) : Host.Outcome State Fault Refusal :=
  runForm 0x8F f s (fun s =>
    let t := vtrType s
    let w := t.width
    let a := getFn s f.a
    let h := a.shape
    let rows := a.rows
    let span := spanOf s w
    if !(spanOk s f.d w && spanOk s f.b w) then illegal s
    else if a.d ≠ 0 ∧ s.t.arch.vnreg < f.b.toNat + a.d * span then illegal s
    else if !plainFloat t || a.d == 0 then config s
    else
      let tm := h.tm
      vectorFromFn f s (fun t i => evalFn t h tm (rowOf h rows i) (pointOf f s w h.d i)))

/-- The place in a source of each coefficient of a lifted function; none for a coefficient that is +0 (R159). -/
def liftPlace (h : Shape) (ax q : Nat) : Option Nat :=
  let n := h.p + 1
  if !h.nodal && q / n ^ ax % n != 0 then none else some (q % n ^ ax + q / n ^ (ax + 1) * n ^ ax)

/-- One element lifted by an axis (R159). DEDUCED: a coefficient of f is copied with its bits, -0 too (log entry 18). -/
def liftFn (h g : Shape) (ax : Nat) (cs : List Nat) : List Nat :=
  if anyBad (h.values cs) then g.nans
  else (List.range g.count).map (fun q =>
    match liftPlace h ax q with
    | none => 0
    | some k => cs.getD k 0)

/-- FNLIFT (R159). -/
def execFnlift (f : Form) (s : State) : Host.Outcome State Fault Refusal :=
  runForm 0x90 f s (fun s =>
    let a := getFn s f.a
    let h := a.shape
    let rows := a.rows
    let ax := f.b.toNat
    if a.d = 0 ∨ a.d = 3 ∨ a.d < ax then config s
    else
      let g : Shape := { h with d := h.d + 1 }
      writeFn f s g (fun i => liftFn h g ax (rowOf h rows i)))

/-- FNDEG (R160). -/
def execFndeg (f : Form) (s : State) : Host.Outcome State Fault Refusal :=
  runForm 0x91 f s (fun s => writeX f (getFn s f.a).header s)

end Sys2Proof.Machine
end

