-- ==== Sys2Proof/Machine/System.lean ====
section
/-! DEFINITION. Control registers (R307 to R309, R315, R323), the context table (R337, R338), the dictionary load and its
measurement (R32 to R38, R316), `svc`, `trap`, `tret`, `brkpt`, `tlbinv`, and the end of a unit by its handler (R331). -/

namespace Sys2Proof.Machine

open Sys2Proof

/-! ### Which numbers a thread can name (R308) -/

/-- A register that a thread of the kind has. -/
def crAssigned (mcc : Bool) (n : Nat) : Bool :=
  [0x000, 0x006, 0x00A, 0x010, 0x011, 0x020].contains n
  || (if mcc then [0x004, 0x005, 0x021, 0x022, 0x023].contains n
      else [0x001, 0x002, 0x003, 0x007, 0x008, 0x009, 0x012, 0x013].contains n)
  || (decide (0x100 ≤ n) && decide (n ≤ 0x107)) || (decide (0x200 ≤ n) && decide (n ≤ 0x210))
  || (decide (0x220 ≤ n) && decide (n ≤ 0x22E)) || (decide (0x300 ≤ n) && decide (n ≤ 0x322))

/-- A register that U mode cannot read. -/
def crHidden (n : Nat) : Bool :=
  (decide (0x100 ≤ n) && decide (n ≤ 0x1FF))
  || [0x302, 0x303, 0x304, 0x305, 0x307, 0x309, 0x30C, 0x320, 0x321, 0x322].contains n

/-- A register that U mode cannot write: spc, rpr and every number from 0x100 up. -/
def crGuarded (n : Nat) : Bool := n == 0x011 || n == 0x020 || decide (0x100 ≤ n)

/-! ### The maps: RW, W1C and RZ bits -/

/-- Bits `hi` down to `lo`. -/
def bitMask (hi lo : Nat) : Nat := 2 ^ (hi + 1) - 2 ^ lo

/-- All 64 bits. -/
def allBits : Nat := bitMask 63 0

/-- RW bits, W1C bits and RZ bits of a register as its map gives them to threads; every other bit is RO. -/
def crMasks (n : Nat) : Nat × Nat × Nat :=
  match n with
  | 0x000 => (bitMask 4 0 + bitMask 15 6, 0, bitMask 63 19 + bitMask 5 5)
  | 0x001 => (0, 0, bitMask 63 13)
  | 0x002 => (allBits, 0, 0)
  | 0x003 => (bitMask 31 16 + bitMask 4 0, 0, bitMask 63 32 + bitMask 15 5)
  | 0x004 => (allBits, 0, 0)
  | 0x005 => (bitMask 3 0, 0, bitMask 63 4)
  | 0x006 => (allBits, 0, 0)
  | 0x007 => (0, 0, bitMask 63 7)
  | 0x008 => (0, 0, bitMask 63 32)
  | 0x00A => (0, 0, bitMask 63 32)
  | 0x010 => (0, 0, bitMask 63 24 + bitMask 7 3)
  | 0x011 => (allBits, 0, 0)
  | 0x012 => (0, 0, bitMask 63 48 + bitMask 31 24)
  | 0x013 => (0, 0, bitMask 63 13)
  | 0x020 => (0, bitMask 31 31, bitMask 23 9)
  | 0x021 => (bitMask 14 8 + bitMask 2 0, 0, bitMask 63 15 + bitMask 7 3)
  | 0x022 => (0, 0, bitMask 63 28)
  | 0x023 => (0, 0, bitMask 63 42 + bitMask 31 10)
  | 0x100 => (bitMask 55 2, 0, bitMask 63 56 + bitMask 1 0)
  | 0x101 => (bitMask 63 16 + bitMask 2 2 + bitMask 0 0, 0, bitMask 15 6 + bitMask 3 3 + bitMask 1 1)
  | 0x103 => (0, 0, bitMask 63 14)
  | 0x105 => (0, 0, bitMask 63 13)
  | 0x106 => (allBits, 0, 0)
  | 0x107 => (allBits, 0, 0)
  | 0x210 => (bitMask 1 0, 0, bitMask 63 2)
  | 0x300 => (bitMask 15 0, 0, bitMask 63 16)
  | 0x301 => (bitMask 31 0, 0, bitMask 63 32)
  | 0x302 => (bitMask 15 0, 0, bitMask 63 16)
  | 0x303 => (bitMask 51 13, 0, bitMask 63 52 + bitMask 12 0)
  | 0x304 => (bitMask 63 48 + bitMask 28 16 + bitMask 11 0, 0, bitMask 47 29 + bitMask 15 12)
  | 0x305 => (bitMask 63 58 + bitMask 51 6, 0, bitMask 57 52 + bitMask 5 0)
  | 0x306 => (0, 0, bitMask 63 32 + bitMask 15 12 + bitMask 7 3)
  | 0x307 => (bitMask 55 2, 0, bitMask 63 56 + bitMask 1 0)
  | 0x308 => (0, 0, bitMask 62 56)
  | 0x309 => (0, 0, bitMask 63 52 + bitMask 21 0)
  | 0x30B => (0, 0, bitMask 63 12)
  | 0x30C => (bitMask 51 12 + bitMask 7 4, bitMask 0 0, bitMask 63 52 + bitMask 11 8 + bitMask 3 1)
  | 0x30D => (0, bitMask 0 0, bitMask 63 1)
  | 0x30E => (0, 0, bitMask 63 17)
  | 0x30F => (0, 0, bitMask 63 40)
  | 0x320 => (0, 0, bitMask 63 52 + bitMask 7 1)
  | 0x321 => (0, 0, bitMask 63 16)
  | 0x322 => (0, 0, bitMask 63 16)
  | n =>
    if 0x200 ≤ n ∧ n ≤ 0x20F then (0, 0, bitMask 63 56 + bitMask 15 13)
    else if 0x220 ≤ n ∧ n ≤ 0x22E then (0, bitMask 63 63, bitMask 56 41)
    else if 0x310 ≤ n ∧ n ≤ 0x31F then (0, 0, bitMask 23 18 + bitMask 5 3)
    else (0, 0, 0)

/-! ### Reading a control register -/

/-- vlmap (R341). -/
def vlmapWord (s : State) : W64 :=
  BitVec.ofNat 64 (((List.range 64).filter (fun l => inShare s s.t.own l && !(retiredHere s).contains l)).foldl
    (fun acc l => acc + 2 ^ l) 0)

/-- CTXID (R309). -/
def ctxidWord (s : State) : W64 := BitVec.ofNat 64 (bitsAt (myJob s).par.toNat 48 16 * 2 ^ 16 + myJobId s)

/-- HEALTH (R343): the retired frames and lanes of the partition's dies, and their corrected errors since boot. -/
def healthWord (s : State) (part : Nat) : W64 :=
  let ds := diesOf s.config part
  let pages := (s.flash.frames.filter (fun f => ds.contains (f / 2 ^ 28))).length
  let lanes := (s.flash.lanes.filter (fun l => ds.contains (l.1 / 128))).length
  BitVec.ofNat 64 ((if s.flash.repl then 2 ^ 63 else 0) + min pages 0xFFFF * 2 ^ 40 + min lanes 255 * 2 ^ 32
    + min ((ds.map (fun d => (getDie s d).corr)).foldl (fun a n => a + n) 0) 0xFFFFFFFF)

/-- A port by its number. -/
def getPort (s : State) (n : Nat) : Port := if h : n < 16 then s.ports[n] else .down

/-- LHPORTS of FABCFG selects a port for long-haul mode (R297). -/
def longHaul (s : State) (n : Nat) : Bool := bitsAt (getPart s (getPort s n).part).fabcfg.toNat (16 + n) 1 == 1

/-- The rank that a job gives a device. -/
def Job.rankOf (j : Job) (device : Nat) : Option Nat := (j.devices.find? (fun e => e.2 == device)).map (fun e => e.1)

/-- LNKSTAT.PEER (R294): the peer's rank in the job given, else in the first valid job of the port's partition that has it;
0 before a peer is known (log entry 27). -/
def peerRank (p : PartState) (job : Nat) (peer : Option Nat) : Nat :=
  match peer with
  | none => 0
  | some d => ((getJob p job :: p.jobs.filter (fun j => j.valid)).findSome? (fun j => j.rankOf d)).getD 0xFFFF

/-- LNKSTATn (R294), for a reader of a job. -/
def lnkstatWord (s : State) (job n : Nat) : W64 :=
  let p := getPort s n
  BitVec.ofNat 64 (p.state % 8 + (if p.half then 2 ^ 6 else 0) + (if longHaul s n then 2 ^ 7 else 0) + p.keyep % 256 * 2 ^ 8
    + p.tier % 4 * 2 ^ 16 + min p.rtt 255 * 2 ^ 24 + min p.retries 0xFFFF * 2 ^ 32
    + peerRank (getPart s p.part) job p.peer % 2 ^ 16 * 2 ^ 48)

/-- The job for which the current thread reads LNKSTATn: its own, at a port of its partition. -/
def linkJob (s : State) (n : Nat) : Nat := if (getPort s n).part = s.u.part then myJobId s else 0xFFFF

/-- BOOTSTAT (R354). -/
def bootstatWord (s : State) : W64 :=
  BitVec.ofNat 64 (s.stage + s.image * 2 ^ 8 + (if s.bootFail then 2 ^ 16 else 0))

/-- The hottest junction of a partition's dies (R352). -/
def partTemp (s : State) (part : Nat) : Nat := ((diesOf s.config part).map (fun d => (getDie s d).temp)).foldl max 0

/-- THERM (R352). -/
def thermWord (s : State) (part : Nat) : W64 :=
  BitVec.ofNat 64 (partTemp s part % 256 + 95 * 2 ^ 8 + partClk s part * 2 ^ 16 + min (getPart s part).thr 0xFFFF * 2 ^ 24)

/-- The job that JOBSEL selects (R315). -/
def selectedJob (p : PartState) : Job := getJob p p.jobsel.toNat

/-- CR[n] as the current thread reads it. -/
def crRead (s : State) (n : Nat) : W64 :=
  let t := s.t
  let p := myPart s
  match n with
  | 0x000 => t.arch.vtr
  | 0x001 => BitVec.ofNat 64 t.arch.vl
  | 0x002 => t.arch.vfill
  | 0x003 => t.arch.mfr
  | 0x004 => t.ttol
  | 0x005 => BitVec.ofNat 64 t.tsweep
  | 0x006 => t.arch.seed
  | 0x007 => BitVec.ofNat 64 t.arch.vnreg
  | 0x008 => lprWord s
  | 0x009 => vlmapWord s
  | 0x00A => ctxidWord s
  | 0x010 => t.sfi
  | 0x011 => t.spc
  | 0x012 => poolWord s
  | 0x013 => BitVec.ofNat 64 t.arch.ffvl
  | 0x020 => rprWord s
  | 0x021 => t.tmode
  | 0x022 => t.arch.tgrant
  | 0x023 => tilepoolWord s t.tileNeed
  | 0x100 => t.tvec
  | 0x101 => t.tstat
  | 0x102 => t.tpc
  | 0x103 => t.tcause
  | 0x104 => t.tval
  | 0x105 => BitVec.ofNat 64 t.telem
  | 0x106 => t.tscr0
  | 0x107 => t.tscr1
  | 0x210 => BitVec.ofNat 64 (cacheCode s (myCluster s))
  | 0x300 => p.hbcfg
  | 0x301 => p.fabcfg
  | 0x302 => p.jobsel
  | 0x303 => (selectedJob p).root
  | 0x304 => (selectedJob p).par
  | 0x305 => (selectedJob p).meas
  | 0x306 => BitVec.ofNat 64 (partcfg s s.u.part)
  | 0x307 => p.tvecdef
  | 0x308 => healthWord s s.u.part
  | 0x309 => BitVec.ofNat 64 (p.jrnBase * 2 ^ 22)
  | 0x30A => BitVec.ofNat 64 p.jrnHead
  | 0x30B => BitVec.ofNat 64 s.capptr
  | 0x30C => p.ctxtbl
  | 0x30E => bootstatWord s
  | 0x30F => thermWord s s.u.part
  | 0x320 => p.adq
  | 0x321 => BitVec.ofNat 64 p.adqTail
  | 0x322 => BitVec.ofNat 64 p.adqHead
  | n =>
    if 0x200 ≤ n ∧ n ≤ 0x20F then (getChan s (n - 0x200)).word
    else if 0x220 ≤ n ∧ n ≤ 0x22E then cpstatWord s (n - 0x220)
    else if 0x310 ≤ n ∧ n ≤ 0x31F then lnkstatWord s (linkJob s (n - 0x310)) (n - 0x310)
    else 0

/-! ### Excluded values -/

/-- vtr (R86). -/
def vtrBad (v : Nat) : Bool :=
  !elemCodes.contains (bitsAt v 0 5) || decide (5 < bitsAt v 6 3) || bitsAt v 9 2 == 3 || decide (4 < bitsAt v 11 3)

/-- ttol (R169). -/
def ttolBad (v : Nat) : Bool :=
  let x := FloatFmt.fp64.decode v
  x.isNan || x.isInf || (x.sign && !x.isZero)

/-- The ports that FABCFG names for long-haul mode in some partition, once this partition's holds a value. -/
def longHaulPorts (s : State) (v : Nat) : List Nat :=
  (List.range 16).filter (fun n => bitsAt v (16 + n) 1 == 1
    || (List.range 4).any (fun k => k != s.u.part && bitsAt (getPart s k).fabcfg.toNat (16 + n) 1 == 1))

/-- FABCFG (R297). A bit counts as set where the value written holds it. DEDUCED: R2 and R292 give a package at most four
long-haul ports, so the bits of the other partitions count too (log entry 23). -/
def fabcfgBad (s : State) (v : Nat) : Bool :=
  decide (4 < (longHaulPorts s v).length) || bitsAt v 0 16 == 0
  || (List.range 16).any (fun n => bitsAt v (16 + n) 1 == 1 && (getPort s n).state != 0)

/-- JOBPAR (R315). -/
def jobparBad (p : PartState) (v : W64) : Bool :=
  let j := selectedJob p
  let k : Job := { j with par := v }
  let asid (x : Job) : Nat := bitsAt x.par.toNat 48 16
  k.quota == 0 || decide (4096 < k.quota) || decide (24 < k.depthLimit) || decide (11 < k.ceil)
  || (j.valid && asid k != asid j)
  || (k.valid && !j.valid && p.jobs.any (fun r => r.id != j.id && r.valid && asid r == asid k))
  || (!k.valid && j.valid && heldBy p j.id != 0)

/-- The value a write would leave is excluded, or its condition does not hold. DEDUCED: a write of JOBPT or JOBMEAS that repeats
the value held does not write the fields that VALID = 1 protects (R315; log entry 40). -/
def crExcluded (s : State) (n : Nat) (v : W64) : Bool :=
  let p := myPart s
  let x := v.toNat
  match n with
  | 0x000 => vtrBad x
  | 0x003 => !mfrOk v
  | 0x004 => ttolBad x
  | 0x005 => x == 0
  | 0x021 => bitsAt x 8 7 == 0 || decide (64 < bitsAt x 8 7) || bitsAt x 0 2 == 3
  | 0x210 => true
  | 0x300 => bitsAt x 0 16 == 0
  | 0x301 => fabcfgBad s x
  | 0x302 => x == 0xFFFF
  | 0x303 => (selectedJob p).valid && v != (selectedJob p).root
  | 0x304 => jobparBad p v
  | 0x305 => decide (32 < bitsAt x 58 6) || ((selectedJob p).valid && v != (selectedJob p).meas)
  | 0x30C => decide (8 < bitsAt x 4 4)
  | _ => false

/-! ### The context table (R337, R338) -/

/-- Hornbeam reads the table again. An entry outside the partition's DRAM is no entry (log entry 24). -/
def kickTable (part : Nat) (s : State) : State :=
  let p := getPart s part
  let one (i : Nat) : CtxEntry :=
    let a := ctxAddr p i
    if dramOwned s part a then ctxEntryOf (Memory.readN s.mem a 32) else ctxEntryOf []
  setPart s part { p with ctx := (List.range (2 ^ (bitsAt p.ctxtbl.toNat 4 4 + 8))).map one }

/-- CTXTBL_KICK (R338). -/
def execCtxtblKick (part : Nat) (s : State) : Host.Outcome State Fault Refusal :=
  runEvent s (fun s => if (diesOf s.config part).isEmpty then none else some (kickTable part s))

/-! ### The end of a unit by its handler, and escalation (R331, R335) -/

/-- A write of 1 to ENDUNIT.END: the handler's strip commits, and the unit ends with its kind-6 entry. -/
def endUnitWrite (s : State) : State :=
  let t := s.t
  let code := bitsAt t.tcause.toNat 0 8
  endFaulted s.u.uid code t.tval t.spc t.telem (if code = 0x12 then bitsAt t.tcause.toNat 8 6 else 0) (commit s)

/-- Escalation to the application die: a kind-7 entry, and the unit ends without a handler. -/
def escalate (code : Nat) (pc : W64) (s : State) : State :=
  let data := leBytes 4 (handleOf s.u.entry s.u.gen) ++ leBytes 4 s.u.index ++ leBytes 8 s.t.tstat.toNat
    ++ leBytes 8 pc.toNat ++ leBytes 8 s.t.spc.toNat
  endUnit s.u.uid true (journal s s.u.part 7 code (myJobId s) 0 data)

/-! ### Writing a control register -/

/-- A change to the job that JOBSEL selects. -/
def writeJob (f : Job → Job) (s : State) : State :=
  mapPart s s.u.part (fun p => setJob p (f (selectedJob p)))

/-- JOBPAR := v. A job ends as VALID is cleared: its counters, groups, devices and timelines go with it (log entry 40). -/
def setPar (v : W64) (j : Job) : Job :=
  let k : Job := { j with par := v }
  if j.valid && !k.valid then { Job.unset j.id with root := j.root, par := v, meas := j.meas } else k

/-- A write of JOBPAR; a job that ends takes its collectives with it (log entry 40). -/
def writePar (v : W64) (s : State) : State :=
  let s1 := writeJob (setPar v) s
  if (selectedJob (myPart s)).valid && !(selectedJob (myPart s1)).valid then
    mapPart s1 s.u.part (fun p => { p with colls := p.colls.filter (fun c => c.job != (selectedJob p).id) })
  else s1

/-- CR[n] := v, with RO fields at their old values; `hit` holds the W1C bits written as 1. -/
def crWrite (n : Nat) (v : W64) (hit : Nat) (s : State) : State :=
  let part := s.u.part
  let a := s.t.arch
  match n with
  | 0x000 =>
    let ty := (ElemTy.ofCode (bitsAt v.toNat 0 5)).getD .f32
    setVtr s (vtrWord ty (bitsAt v.toNat 6 3) (bitsAt v.toNat 9 2) (bitsAt v.toNat 11 3) (bitsAt v.toNat 14 2))
  | 0x002 => withArch s { a with vfill := v }
  | 0x003 => withArch s { a with mfr := v }
  | 0x004 => { s with t := { s.t with ttol := v } }
  | 0x005 => { s with t := { s.t with tsweep := v.toNat } }
  | 0x006 => withArch s { a with seed := v }
  | 0x011 => { s with t := { s.t with spc := v } }
  | 0x020 => if hit = 0 then s else resumeTile s
  | 0x021 => { s with t := { s.t with tmode := v } }
  | 0x100 => { s with t := { s.t with tvec := v } }
  | 0x101 => { s with t := { s.t with tstat := v } }
  | 0x106 => { s with t := { s.t with tscr0 := v } }
  | 0x107 => { s with t := { s.t with tscr1 := v } }
  | 0x300 => mapPart s part (fun p => { p with hbcfg := v })
  | 0x301 => mapPart s part (fun p => { p with fabcfg := v })
  | 0x302 => mapPart s part (fun p => { p with jobsel := v })
  | 0x303 => writeJob (fun j => { j with root := v }) s
  | 0x304 => writePar v s
  | 0x305 => writeJob (fun j => { j with meas := v }) s
  | 0x307 => mapPart s part (fun p => { p with tvecdef := v })
  | 0x30C =>
    let s1 := mapPart s part (fun p => { p with ctxtbl := v })
    if hit = 0 then s1 else kickTable part s1
  | 0x30D => if hit = 0 then s else endUnitWrite s
  | n => if 0x220 ≤ n ∧ n ≤ 0x22E ∧ hit ≠ 0 then resumeCopy s (n - 0x220) else s

/-- The register number of an access (R323): the constant, or X[a] in the form with IMM 0. -/
def crNumber (f : Form) (s : State) : Nat := if f.imm then (f.b ++ f.c : BitVec 14).toNat else (getX s f.a).toNat

/-- A kind-4 entry for a write to 0x300 to 0x3FF (R345). -/
def journalWrite (n : Nat) (old : W64) (s : State) : State :=
  journal s s.u.part 4 0 (myJobId s) 0
    (leBytes 2 n ++ leBytes 6 0 ++ leBytes 8 (crRead s n).toNat ++ leBytes 8 old.toNat)

/-- A write that has passed its checks. -/
def crStore (f : Form) (n : Nat) (old v : W64) (hit : Nat) (back : Bool) (s : State) : Res :=
  let closes := n == 0x020 || decide (0x200 ≤ n)
  let s1 := crWrite n v hit (if closes then commit s else s)
  if n = 0x30D ∧ hit ≠ 0 then .done s1
  else
    let s2 := if back then setX s1 f.d old else s1
    let s3 := if 0x300 ≤ n then journalWrite n old s2 else s2
    .done (if closes then closeDone s3 else nextPc s3)

/-- SYSWR, SYSSET and SYSCLR (R323): `op` combines the old value and X[d]; `clear` is `sysclr`, and `back` returns the
old value. -/
def crChange (op : W64 → W64 → W64) (clear back : Bool) (f : Form) (s : State) : Res :=
  let n := crNumber f s
  if !crAssigned (s.t.slot == 8) n then illegal s
  else if s.t.mode = .user ∧ crGuarded n then privileged s
  else
    let m := crMasks n
    let old := crRead s n
    let v := getX s f.d
    let raw := (op old v).toNat
    let hit := if clear then 0 else Nat.land v.toNat m.2.1
    let new := BitVec.ofNat 64 (Nat.land raw m.1 + Nat.land old.toNat (allBits - m.1 - m.2.1))
    if Nat.land raw m.2.2 ≠ 0 then config s
    else if crExcluded s n new then config s
    else crStore f n old new hit back s

/-- SYSRD (R323). -/
def execSysrd (f : Form) (s : State) : Host.Outcome State Fault Refusal :=
  runForm 0xF3 f s (fun s =>
    let n := crNumber f s
    if !crAssigned (s.t.slot == 8) n then illegal s
    else if s.t.mode = .user ∧ crHidden n then privileged s
    else writeX f (crRead s n) s)

/-- SYSWR (R323). -/
def execSyswr (f : Form) (s : State) : Host.Outcome State Fault Refusal :=
  runForm 0xF4 f s (crChange (fun _ v => v) false false f)
/-- SYSSET (R323). -/
def execSysset (f : Form) (s : State) : Host.Outcome State Fault Refusal :=
  runForm 0xF5 f s (crChange (fun old v => old ||| v) false true f)
/-- SYSCLR (R323). -/
def execSysclr (f : Form) (s : State) : Host.Outcome State Fault Refusal :=
  runForm 0xF6 f s (crChange (fun old v => old &&& ~~~v) true true f)

/-! ### The writes as events -/

/-- RPR_SUSP_WRITE (R176): the handler's strip commits, and the operation continues at its row. -/
def execRprSuspWrite (t : Tid) (s : State) : Host.Outcome State Fault Refusal :=
  threadEvent t s (fun s => if s.t.mode = .super ∧ s.u.tsusp.isSome then some (resumeTile (commit s)) else none)

/-- CPSTAT_SUSP_WRITE (R233). -/
def execCpstatSuspWrite (t : Tid) (n : Nat) (s : State) : Host.Outcome State Fault Refusal :=
  threadEvent t s (fun s => if s.t.mode = .super ∧ (getCsusp s n).isSome then some (resumeCopy (commit s) n) else none)

/-- VTR_WRITE (R86): a write with a reserved bit or an excluded value leaves vtr as it is. -/
def execVtrWrite (t : Tid) (v : W64) (s : State) : Host.Outcome State Fault Refusal :=
  threadEvent t s (fun s =>
    if Nat.land v.toNat (crMasks 0).2.2 ≠ 0 ∨ vtrBad v.toNat then some (takeTrap s .R (.of 0x10 0 0) s.t.arch.pc s.t.arch.pc)
    else some (crWrite 0 v 0 s))

/-- ENDUNIT_WRITE (R331). -/
def execEndunitWrite (t : Tid) (s : State) : Host.Outcome State Fault Refusal :=
  threadEvent t s (fun s => if s.t.mode = .super then some (endUnitWrite s) else none)

/-! ### svc, trap, tret, brkpt (R324, R334 to R336) -/

/-- SVC (R324): the strip closes, and the handler returns to the next instruction. -/
def execSvc (f : Form) (s : State) : Host.Outcome State Fault Refusal :=
  runForm 0xF7 f s (fun s =>
    let pc := s.t.arch.pc
    .done (takeTrap (commit s) .N (.of 0x18 (getX s f.a) 0) pc (pc + 4)))

/-- TRAP (R334). -/
def execTrap (f : Form) (s : State) : Host.Outcome State Fault Refusal :=
  runForm 0xF8 f s (fun s => if getX s f.a ≠ 0 then faultR 0x16 (getX s f.b) s else .done (nextPc s))

/-- The mode that tstat.PM names. -/
def returnMode (tstat : W64) : Mode := if tstat.getLsbD 0 then .super else .user

/-- The divergence that a return to a mode resumes, and what stays put aside: a return to U mode takes what the trap out of
U mode put aside, and a return to S mode what the last trap did if it came from there (R127; log entry 31). -/
def popHeld (m : Mode) : List (Mode × Option Vp) → Option Vp × List (Mode × Option Vp)
  | [] => (none, [])
  | h :: hs =>
    match m, h.1 with
    | .super, .super => (h.2, hs)
    | .super, .user => (none, h :: hs)
    | .user, .user => (h.2, hs)
    | .user, .super => popHeld m hs

/-- The return itself: mode, PC, the divergence with its running group at the address returned to, the strip that opens,
and a step that STEP arms (R127, R335). -/
def trapReturn (s : State) : State :=
  let t := s.t
  let m := returnMode t.tstat
  let r := popHeld m t.vpHeld
  openStrip { s with t := { t with
    mode := m, vpHeld := r.2
    arch := { t.arch with pc := t.spc, vp := r.1.map (fun v => groupPc v t.spc) } } } 5

/-- TRET (R335). -/
def execTret (f : Form) (s : State) : Host.Outcome State Fault Refusal :=
  runForm 0xF9 f s (fun s =>
    let s1 := commit s
    if s1.t.mode = .user then faultC 0x04 s1.t.iword s1
    else if bitsAt s1.t.tstat.toNat 16 48 ≠ 0 then .done (escalate 0x05 s1.t.tpc s1)
    else
      let s2 := complete (trapReturn s1)
      -- the step counts from the next instruction on
      .waiting .none { s2 with t := { s2.t with stepArmed := s1.t.tstat.getLsbD 2 } })

/-- BRKPT (R336). -/
def execBrkpt (f : Form) (s : State) : Host.Outcome State Fault Refusal :=
  runForm 0xFB f s (fun s => faultC 0x17 (BitVec.ofNat 64 (packedConst f)) (commit s))

/-! ### tlbinv (R325) -/

/-- A translation of an ASID, a level and a page that a `tlbinv` with operands `a` and `b` names. -/
def tlbNames (a b : W64) (asid level vpn : Nat) : Bool :=
  let kind := bitsAt b.toNat 16 2
  kind == 2 || (asid == bitsAt b.toNat 0 16 && (kind == 1 || vpn == a.toNat / 2 ^ (16 + 10 * level)))

/-- A cached entry that it names. -/
def TlbEntry.named (a b : W64) (e : TlbEntry) : Bool := tlbNames a b e.asid e.level e.vpn

/-- A pin on a translation that it names and that its removal, number `n` of the partition, has removed. -/
def Pin.named (a b : W64) (n : Nat) (p : Pin) : Bool := tlbNames a b p.asid p.level p.vpn && decide (p.age < n)

/-- A store holds such a pin. -/
def Store.named (a b : W64) (n : Nat) (st : Store) : Bool := st.pins.any (Pin.named a b n)

/-- A thread's open strip holds such a store. -/
def stripPins (a b : W64) (n : Nat) (t : Thread) : Bool :=
  t.strip.items.any (fun i => match i with | .store st => st.named a b n | .fence _ => false)

/-- A write-combining buffer holds such a store or AMO. -/
def bufferPins (a b : W64) (n : Nat) (buf : List (Nat × DetItem)) : Bool :=
  buf.any (fun e => match e.2 with
    | .store st => st.named a b n
    | .amo _ _ _ _ _ _ ps => ps.any (Pin.named a b n)
    | _ => false)

/-- A thread has committed such a store or AMO and it has not performed. -/
def committedPins (a b : W64) (n : Nat) (t : Thread) : Bool :=
  t.performing.any (fun p => match p with | .store st => st.named a b n | _ => false) || bufferPins a b n t.wcb

/-- A context stands in a saved image: its unit is switched out, or it is alone. -/
def isSaved (u : UnitCtx) (t : Thread) : Bool := u.cluster.isNone || t.away

/-- Every buffered store of another context of the partition that pins a removed translation has performed or been discarded,
and so has what the complete units of a launch have left; the open strip of a saved image does not count (R274, R325). -/
def pinsClear (a b : W64) (n : Nat) (s : State) : Bool :=
  ((allUnits s).filter (fun u => u.part == s.u.part)).all (fun u => u.threads.all (fun t =>
    (u.uid == s.u.uid && t.slot == s.t.slot) || !(committedPins a b n t || (!isSaved u t && stripPins a b n t))))
  && (myPart s).launches.all (fun l => l.leftover.all (fun x => !bufferPins a b n x.2))

/-- The frames in DRAM of the threads of a unit that a test selects, as the table has them now (R338). -/
def savedFrames (s : State) (u : UnitCtx) (test : Thread → Bool) : List Nat :=
  (u.threads.filter test).flatMap (fun t =>
    (((ctxWhere (getPart s u.part) (ownsFrame u 1 t.slot)).map (fun e => freshEntry s u.part e.1 e.2)).filter
      (fun e => e.state == 2 && bitsAt e.flags 0 1 == 1)).map (fun e => e.frame))

/-- The DISCARD flag of a frame is set (R325, R339). -/
def markFrame (s : State) (frame : Nat) : State := deviceWrite (frame + 6) [Memory.read s.mem (frame + 6) ||| 2] s

/-- Saved open strips that pin a removed translation are marked, in their frames where those are in DRAM (R325, R338). -/
def markSaved (a b : W64) (n part : Nat) (s : State) : State :=
  let marked (u : UnitCtx) (t : Thread) : Bool := isSaved u t && stripPins a b n t
  let fix (u : UnitCtx) (t : Thread) : Thread := { t with discard := t.discard || marked u t }
  let fixU (u : UnitCtx) : UnitCtx := if u.part = part then { u with threads := u.threads.map (fix u) } else u
  let frames := ((allUnits s).filter (fun u => u.part == part)).flatMap (fun u => savedFrames s u (marked u))
  let s1 := frames.foldl markFrame s
  { s1 with t := fix s1.u s1.t, u := fixU s1.u, units := s1.units.map fixU }

/-- Elements read ahead in a partition go (R227; log entry 15). -/
def dropAheads (part : Nat) (s : State) : State :=
  let fix (t : Thread) : Thread := { t with arch := dropAhead t.arch, ckpt := dropAhead t.ckpt }
  let fixU (u : UnitCtx) : UnitCtx := if u.part = part then { u with threads := u.threads.map fix } else u
  { s with t := fix s.t, u := fixU s.u, units := s.units.map fixU }

/-- `tlbinv` completes; one of kind 2 is journalled (R345). -/
def tlbinvEnd (f : Form) (s : State) : Res :=
  let b := getX s f.b
  let s1 :=
    if bitsAt b.toNat 16 2 = 2 then
      journal s s.u.part 4 0 (myJobId s) 0 (leBytes 2 0x0FA ++ leBytes 6 0 ++ leBytes 8 b.toNat ++ leBytes 8 0)
    else s
  .done (closeDone s1)

/-- The named entries leave the translation caches of the partition: one more removal. -/
def dropNamed (a b : W64) (s : State) : State :=
  mapPart s s.u.part (fun p => { p with tlb := p.tlb.filter (fun e => !e.named a b), removals := p.removals + 1 })

/-- TLBINV (R325). A context that is saved while it waits is marked too. -/
def execTlbinv (f : Form) (s : State) : Host.Outcome State Fault Refusal :=
  runForm 0xFA f s (fun s =>
    let a := getX s f.a
    let b := getX s f.b
    match s.t.wait with
    | .pins _ _ n =>
      let s1 := markSaved a b n s.u.part s
      if pinsClear a b n s1 then tlbinvEnd f s1 else .waiting (.pins a b n) s1
    | _ =>
      let kind := bitsAt b.toNat 16 2
      if kind = 3 ∨ bitsAt b.toNat 18 46 ≠ 0 then config s
      else if kind = 0 ∧ a.toNat % 2 ^ 16 ≠ 0 then faultR 0x06 a s
      else
        let s1 := openStrip (drain (commit s)) 1
        if !allPerformed s1.t then .waiting .performed s1
        else
          let n := (myPart s1).removals + 1
          let s2 := markSaved a b n s1.u.part (dropAheads s1.u.part (dropNamed a b s1))
          if pinsClear a b n s2 then tlbinvEnd f s2 else .waiting (.pins a b n) s2)

/-! ### The dictionary (R32 to R38) -/

/-- The doubleword that an image's entry leaves in the table (R32). -/
def tableEntry (image : List Byte) (i : Nat) : W64 :=
  let w := BitVec.ofNat 64 (fieldAt image (8 * i) 8)
  if validLong w then w else undefinedEntry

/-- The table replaced by the validated image. -/
def takeImage (image : List Byte) (s : State) : State :=
  { s with t := { s.t with dict := Vector.ofFn (fun (i : Fin 256) => tableEntry image i.val), image := some image,
                           dictLoading := true } }

/-- The 2 KiB of an image (R36). -/
def readImage (va : Nat) (s : State) : Except MemFault (List Byte × State) :=
  match translateElem s (threadSpace s) .dict va 2048 with
  | .error e => .error e
  | .ok (locs, s1) =>
    match dataError s1 va locs with
    | some e => .error e
    | none =>
      let s2 := loadLines locs s1
      .ok (locs.map (viewByte s2), s2)

/-- DLOAD (R36). -/
def execDload (f : Form) (s : State) : Host.Outcome State Fault Refusal :=
  runForm 0xF0 f s (fun s => afterEpoch (openStrip (drain (commit s)) 1) (fun s =>
    let addr := getX s f.a
    if addr.toNat % 2048 ≠ 0 then faultC 0x06 addr s
    else
      match readImage addr.toNat s with
      | .error e => memFaultC e s
      | .ok (image, s1) => .done (closeDone (takeImage image s1))))

/-- The registered digests of a job, by physical address; none where the list cannot be read (R316). -/
def digestList (part : Nat) (j : Job) (s : State) : Option (List (List Byte)) :=
  let count := bitsAt j.meas.toNat 58 6
  let base := bitsAt j.meas.toNat 6 46 * 64
  let lines := (List.range count).map (fun i => base + 64 * i)
  if lines.all (fun a => dramOwned s part a && (lineError s a).isNone) then
    some (lines.map (fun a => Memory.readN s.mem a 64))
  else none

/-- The image passes the measurement check of the thread's job (R316). -/
def measured (s : State) : Bool :=
  let j := myJob s
  if !j.mreq then true
  else
    match s.t.image with
    | none => true
    | some img =>
      match digestList s.u.part j s with
      | none => false
      | some ds => ds.contains (sha512 img)

/-- DSYNC (R37). The words after it are fetched afresh at every step. -/
def execDsync (f : Form) (s : State) : Host.Outcome State Fault Refusal :=
  runForm 0xF1 f s (fun s =>
    let s1 := drain (commit s)
    if !measured s1 then faultC 0x1A 0 s1
    else .done (closeDone { s1 with t := { s1.t with dictLoading := false } }))

/-- DREAD (R38). -/
def execDread (f : Form) (s : State) : Host.Outcome State Fault Refusal :=
  runForm 0xF2 f s (fun s => writeX f (s.t.dict.toList.getD ((getX s f.a).toNat % 256) undefinedEntry) s)

/-- The pending load at thread start (R33). A read that faults leaves the load pending and 256 undefined entries. DEDUCED:
tpc of a failed measurement is the PC that the thread starts at, which R316 calls ENTRY and which is ENTRY + MCCOFF for the
MCC thread (log entry 48). -/
def pendingLoad (s : State) : State :=
  let pc := s.t.arch.pc
  match readImage (recDict (myRecord s)) s with
  | .error e =>
    let s1 := { s with t := { s.t with dict := Vector.replicate 256 undefinedEntry, image := none, dictLoading := false } }
    takeTrap (commit s1) .C (.of e.code (BitVec.ofNat 64 e.addr) 0) pc pc
  | .ok (image, s1) =>
    let s2 := takeImage image s1
    let s3 := { s2 with t := { s2.t with dictPending := false } }
    if measured s3 then { s3 with t := { s3.t with dictLoading := false } }
    else takeTrap (commit s3) .C (.of 0x1A 0 0) pc pc

end Sys2Proof.Machine
end

