-- ==== Sys2Proof/Machine/Frames.lean ====
section
/-! DEFINITION. Save images: the frames of vector threads and of units (R337 to R340), and `setvl`, which may switch its
thread out (R90, R92, R147, R273). Where the spec leaves the inner layout
of an area open, its bytes are free values that may depend on what the area holds (log entry 19). -/

namespace Sys2Proof.Machine

open Sys2Proof

/-- A list of words of 8 bytes. -/
def words8 (ws : List W64) : List Byte := ws.flatMap (fun w => leBytes 8 w.toNat)

/-- Bytes written from an address on, where every byte was 0. -/
def putBytes (base : Nat) (bs : List Byte) (m : List Host.Cell) : List Host.Cell :=
  (((List.range bs.length).zip bs).filter (fun e => e.2 != 0)).foldl (fun m e => Memory.write m (base + e.1) e.2) m

/-- An area of a frame: its offset, what it holds, and, where its inner layout is open, how many bytes it takes. -/
structure FrameArea where
  off : Nat
  bytes : List Byte
  openSize : Nat := 0
  deriving DecidableEq, Repr

/-- The bytes of an area. -/
def FrameArea.image (num : Nat) (a : FrameArea) : List Byte :=
  if a.openSize = 0 then a.bytes else (List.range a.openSize).map (Config.frameByte (num + a.off) a.bytes)

/-- Areas of a frame. -/
def putAreas (base num : Nat) (areas : List FrameArea) (m : List Host.Cell) : List Host.Cell :=
  areas.foldl (fun m a => putBytes (base + a.off) (a.image num) m) m

/-- Control registers 0x000 to 0x013 as a context holds them in some checkpointed registers, then 0x100 to 0x107. -/
def frameRegs (s : State) (a : Arch) : List W64 :=
  let s1 := withArch s a
  (List.range 0x14).map (fun n => if crAssigned (s.t.slot == 8) n then crRead s1 n else 0)

/-- A word of a number. -/
def wordOf (n : Nat) : W64 := BitVec.ofNat 64 n

/-- A stream register's three words (R224). -/
def Stream.words (m : Stream) : List W64 := [m.base, m.word, wordOf m.cons]

/-- The VP divergence state as bytes: VPC, RUN, JOINPC, the running group, the count. -/
def vpBytes (v : Vp) : List Byte :=
  words8 ((List.range 4096).map (fun i => v.vpc.getD i 0)) ++ leBytes 512 v.run ++ leBytes 8 v.joinPc.toNat
    ++ leBytes 512 v.group ++ leBytes 8 v.count

/-- The vector registers, register `n` at `n` × regbits / 8. -/
def vectorBytes (s : State) (v : List Nat) : List Byte := v.flatMap (fun x => leBytes (regbits s / 8) x)

/-- The predicates, 512 bytes each. p0, which no register holds, is saved as it reads: all-true over the bits that a
predicate of the share can hold (R85, R88; log entry 19). -/
def predBytes (s : State) (p : Vector Nat 96) : List Byte :=
  (p.set 0 (2 ^ (64 * lanesOf s) - 1)).toList.flatMap (leBytes 512)

/-- The lines of the open strip's stores with the classes that each has, in the order in which they appear. -/
def bufferLines (st : Strip) : List (Nat × Nat) :=
  (st.items.flatMap (fun i => match i with
    | .store x => x.elems.flatMap (fun e => e.map (fun w => (w.loc / 64, x.cls)))
    | .fence _ => [])).eraseDups

/-- The bytes that the open strip's stores of a class write in a line: value and whether written. -/
def bufferByte (st : Strip) (line cls i : Nat) : Byte × Bool :=
  let ws := st.items.flatMap (fun it => match it with
    | .store x => if x.cls = cls then x.elems.flatten.filter (fun w => w.loc == 64 * line + i) else []
    | .fence _ => [])
  (overlayBytes (64 * line + i) ws 0, !ws.isEmpty)

/-- What the tag of a line holds for a class: the line's address, the byte mask and the class. -/
def tagBytes (st : Strip) (l : Nat × Nat) : List Byte :=
  leBytes 8 (64 * l.1) ++
    leBytes 8 ((List.range 64).foldl (fun acc i => if (bufferByte st l.1 l.2 i).2 then acc + 2 ^ i else acc) 0) ++
    leBytes 1 l.2

/-- A buffered engine command. -/
def cmdBytes (c : Cmd) : List Byte :=
  match c with
  | .copy tl dst src cls => leBytes 1 1 ++ leBytes 1 tl ++ leBytes 1 cls ++ dst ++ src
  | .coll gl desc die => leBytes 1 2 ++ leBytes 1 gl ++ leBytes 1 die ++ desc
  | .xsend rank p => leBytes 1 3 ++ leBytes 2 rank ++ p.bytes

/-- The coefficients of the function registers, packed. -/
def fnBytes (fn : Vector FnReg 16) : List Byte :=
  fn.toList.flatMap (fun r => r.coefs.flatMap (leBytes (if r.f64 then 8 else 4)))

/-- The header of a vector-thread frame (R339). -/
def threadHeader (s : State) (form : Nat) : List Byte :=
  let t := s.t
  let flags := (if form = 0 ∧ t.wait = .none then 1 else 0) + (if t.discard then 2 else 0)
    + (match t.mode with | .super => 4 | .user => 0) + (if t.dictLoading then 8 else 0) + (if t.dictPending then 16 else 0)
  leBytes 4 1 ++ [1] ++ leBytes 1 form ++ leBytes 1 flags ++ leBytes 1 t.slot ++ leBytes 2 (myJobId s)
    ++ leBytes 2 (bitsAt (myJob s).par.toNat 48 16) ++ leBytes 1 t.own ++ leBytes 1 t.dem ++ leBytes 1 t.arch.vnreg
    ++ leBytes 1 (if isDet s then recordLanes s else 0)

/-- The divergence states of the current thread: that in force, and those put aside by its handlers (R127). -/
def heldVps (t : Thread) : List Vp := (t.arch.vp :: t.vpHeld.map (fun h => h.2)).filterMap id

/-- The areas of the current vector thread's frame. After a rollback switch-out the checkpoint, shadow and store-buffer
areas are zero. Each of the strip's lines has one tag and one line of data, whatever classes its stores have (R239). -/
def threadAreas (s : State) (form : Nat) : List FrameArea :=
  let t := s.t
  let a := t.arch
  let k := t.ckpt
  let traps := (List.range 8).map (fun i => crRead s (0x100 + i))
  let lines := bufferLines t.strip
  let held := (stripLines t.strip).length
  let saved (b : List Byte) : List Byte := if form = 0 then b else []
  let plain : List FrameArea := [
    { off := 0, bytes := threadHeader s form }, { off := 0x100, bytes := words8 a.x.toList },
    { off := 0x300, bytes := words8 (frameRegs s a ++ traps) }, { off := 0x800, bytes := words8 t.dict.toList },
    { off := 0x1000, openSize := 1024
      bytes := words8 (a.sm.toList.flatMap Stream.words) ++ saved (words8 (k.sm.toList.flatMap Stream.words)) },
    { off := 0x1400, openSize := 1024
      bytes := words8 (a.fn.toList.map FnReg.header) ++ saved (words8 (k.fn.toList.map FnReg.header)) },
    { off := 0x2000, openSize := if (heldVps t).isEmpty then 0 else 40960, bytes := (heldVps t).flatMap vpBytes },
    { off := 0x20000, bytes := vectorBytes s a.v }, { off := 0xA0000, bytes := predBytes s a.p },
    { off := 0x100000, openSize := 4096 * fnShare s, bytes := fnBytes a.fn ++ saved (fnBytes k.fn) }]
  let open_ : List FrameArea := [
    { off := 0x400, openSize := 1024
      bytes := words8 ([k.pc] ++ k.x.toList ++ frameRegs s k ++ [wordOf k.stripSeq, wordOf k.ordinal]) },
    { off := 0xC000, openSize := if k.vp.isSome then 40960 else 0, bytes := k.vp.toList.flatMap vpBytes },
    { off := 0x60000, bytes := vectorBytes s k.v }, { off := 0xAC000, bytes := predBytes s k.p },
    { off := 0xB8000, openSize := 16 * held, bytes := lines.flatMap (tagBytes t.strip) },
    { off := 0xBC000, openSize := 128 * t.strip.cmds.length, bytes := t.strip.cmds.flatMap cmdBytes },
    { off := 0xC0000, openSize := 64 * held
      bytes := lines.flatMap (fun l => (List.range 64).map (fun i => (bufferByte t.strip l.1 l.2 i).1)) }]
  if form = 0 then plain ++ open_ else plain

/-- Write a frame: its bytes are zero but for its areas. -/
def writeFrame (base size : Nat) (areas : List FrameArea) (s : State) : State :=
  { s with mem := putAreas base s.freeCtr areas (Memory.zeroRange s.mem base (base + size)), freeCtr := s.freeCtr + size,
           poison := s.poison.filter (fun l => !(decide (base / 64 ≤ l) && decide (l < (base + size) / 64))),
           guards := s.guards.filter (fun g => !(decide (base / 64 ≤ g.1) && decide (g.1 < (base + size) / 64))) }

/-- The context table entry of a context: its index and itself. -/
def frameOf (s : State) (kind slot : Nat) : Option (Nat × CtxEntry) :=
  (ctxWhere (myPart s) (ownsFrame s.u kind slot)).head?

/-- The current vector thread's frame is written, and its entry says saved (R337). -/
def saveThread (form : Nat) (s : State) : State :=
  match frameOf s 1 s.t.slot with
  | none => s
  | some (i, e) =>
    let s1 := writeFrame e.frame 0x200000 (threadAreas s form) s
    writeCtx s1.u.part i { e with state := 2, flags := bitsAt e.flags 1 1 * 2 + 1 } s1

/-- The header of a unit frame (R340). -/
def unitHeader (s : State) : List Byte :=
  let prio := match myLaunch s with | some l => l.frozen.getD 0 | none => 0
  leBytes 4 1 ++ [2] ++ leBytes 2 (myJobId s) ++ leBytes 2 (bitsAt (myJob s).par.toNat 48 16)
    ++ leBytes 4 (handleOf s.u.entry s.u.gen) ++ leBytes 4 s.u.index ++ leBytes 1 prio
    ++ leBytes 1 s.u.threads.length ++ leBytes 1 (if recMcc (myRecord s) then 1 else 0)

/-- An unperformed tile operation. -/
def tileOpBytes (p : TileOp) : List Byte :=
  leBytes 4 p.num ++ leBytes 1 p.opc ++ leBytes 1 p.td ++ leBytes 1 p.ta ++ leBytes 1 p.tb ++ leBytes 8 p.hdr.word.toNat
    ++ leBytes 2 p.gm ++ leBytes 2 p.gn ++ leBytes 2 p.gk ++ leBytes 1 p.cls ++ leBytes 1 p.fmt ++ leBytes 8 p.val.toNat
    ++ p.descA ++ p.descB ++ leBytes 2 p.row

/-- The MCC thread's part of a unit frame. -/
def mccWords (s : State) (t : Thread) : List W64 :=
  t.arch.x.toList ++ [t.arch.vtr, t.arch.seed, t.ttol, wordOf t.tsweep, rprWord s, t.tmode, t.arch.tgrant,
    tilepoolWord s t.tileNeed, t.spc, t.sfi, t.tvec, t.tstat, t.tpc, t.tcause, t.tval, wordOf t.telem, t.tscr0, t.tscr1]
    ++ [t.ckpt.pc] ++ t.ckpt.x.toList ++ [t.ckpt.vtr, t.ckpt.seed, t.ckpt.tgrant, wordOf t.ckpt.ordinal,
    wordOf t.ckpt.stripSeq] ++ t.dict.toList

/-- A tile's contents. -/
def tileBytes (b : TileBody) : List Byte :=
  b.acc.flatMap (leBytes 8) ++ (b.u ++ b.v).flatMap (leBytes (factorBytes b.hdr.ftype))

/-- The areas of the current unit's frame. -/
def unitAreas (s : State) : List FrameArea :=
  let u := s.u
  let mcc := match u.threads.find? (fun t => t.slot == 8) with
    | some t => words8 (mccWords s t)
    | none => []
  let ops := u.ops.filter (fun p => !p.done)
  let local_ (t : Thread) : List Byte := (t.strip.sent.toList ++ t.strip.recvd.toList).flatMap (leBytes 2)
  [{ off := 0, openSize := 256, bytes := unitHeader s }, { off := 0x1000, openSize := if mcc.isEmpty then 0 else 8192, bytes := mcc },
   { off := 0x3000, openSize := 4096, bytes := words8 (u.hdrs.toList.map TileHdr.word) },
   { off := 0x4000, openSize := 4096, bytes := ops.flatMap tileOpBytes ++ words8 [wordOf u.tl15Issued, wordOf u.tl15] },
   { off := 0x5000, openSize := 256
     bytes := words8 ((u.tlIssued.toList.zip u.tl.toList).flatMap (fun e => [wordOf e.1, wordOf e.2])
       ++ (List.range 15).map (cpstatWord s)) },
   { off := 0x5100, openSize := 1024, bytes := words8 (u.chans.toList.map Chan.word) ++ u.threads.flatMap local_ },
   { off := 0x10000, openSize := 1572864, bytes := u.tiles.toList.flatMap tileBytes }]

/-- The current unit's frame is written, CSP included, and its entry says saved. -/
def saveUnit (s : State) : State :=
  match frameOf s 2 0 with
  | none => s
  | some (i, e) =>
    let s1 := writeFrame e.frame 0x400000 (unitAreas s) s
    let s2 := { s1 with mem := s.u.csp.foldl (fun m c => Memory.write m (e.frame + 0x200000 + c.1) c.2) s1.mem }
    let s3 := writeCtx s2.u.part i { e with state := 2, flags := bitsAt e.flags 1 1 * 2 + 1 } s2
    { s3 with u := { s3.u with cspSaved := s3.u.csp } }

/-! ### Reading frames (R320, R339, R340) -/

/-- The number that the bytes of a range of memory form, least significant first. -/
def areaValue (m : List Host.Cell) (base n : Nat) : Nat :=
  m.foldl (fun acc c => if base ≤ c.1 ∧ c.1 < base + n then acc + c.2.toNat * 256 ^ (c.1 - base) else acc) 0

/-- The registers of an image whose vector registers and predicates stand at two offsets of the frame. No register holds p0. -/
def imageFile (m : List Host.Cell) (frame vOff pOff bytes : Nat) (a : Arch) : Arch :=
  { a with
    v := (List.range a.v.length).map (fun n => areaValue m (frame + vOff + n * bytes) bytes)
    p := (Vector.ofFn (fun (i : Fin 96) => areaValue m (frame + pOff + 512 * i.val) 512)).set 0 a.p[0] }

/-- The current vector thread takes from its frame what the frame's layout fixes: the header, the registers and the shadows
of the checkpoint. The areas of open layout give back what was saved (R320, R339; log entry 19). -/
def loadThread (s : State) : State :=
  match frameOf s 1 s.t.slot with
  | none => s
  | some (_, e) =>
    let area (off n : Nat) : Nat := areaValue s.mem (e.frame + off) n
    let head := area 0 16
    let flag (i : Nat) : Bool := bitsAt head (48 + i) 1 == 1
    let cr := area 0x300 0xE0
    let reg (i : Nat) : Nat := bitsAt cr (64 * i) 64
    let word (i : Nat) : W64 := wordOf (reg i)
    let xs := area 0x100 512
    let d := area 0x800 2048
    let vn := bitsAt head 112 8
    let a : Arch := { s.t.arch with
      x := Vector.ofFn (fun (i : Fin 64) => wordOf (bitsAt xs (64 * i.val) 64))
      v := List.replicate vn 0, vnreg := vn
      vtr := word 0, vl := reg 1, vfill := word 2, mfr := word 3, seed := word 6, ffvl := reg 19 }
    let s1 := withArch { s with t := { s.t with own := bitsAt head 96 8, dem := bitsAt head 104 8 } } a
    let rb := regbits s1 / 8
    let arch := imageFile s.mem e.frame 0x20000 0xA0000 rb a
    let ckpt := if bitsAt head 40 8 = 0 then imageFile s.mem e.frame 0x60000 0xAC000 rb s.t.ckpt else arch
    { s1 with t := { s1.t with
        arch, ckpt, mode := if flag 2 then .super else .user
        discard := flag 1 || s.t.discard, dictLoading := flag 3, dictPending := flag 4
        pend := bitsAt (reg 8) 16 8, poolNeed := bitsAt (reg 18) 32 16
        dict := Vector.ofFn (fun (i : Fin 256) => wordOf (bitsAt d (64 * i.val) 64))
        sfi := word 16, spc := word 17, tstat := word 21, tpc := word 22, tcause := word 23, tval := word 24,
        telem := reg 25, tscr0 := word 26, tscr1 := word 27 } }

/-- The scratchpad bytes that have changed since one list of cells became another, over a third. -/
def overlayChanges (old new base : List Host.Cell) : List Host.Cell :=
  (((old ++ new).map (fun c => c.1)).filter (fun a => Memory.read old a != Memory.read new a)).foldl
    (fun m a => Memory.write m a (Memory.read new a)) base

/-- The current unit takes its CSP from its frame (R340). What has performed on it since the frame was written, at the end of
an epoch of its launch (R81, R82), is in it too. -/
def loadUnit (s : State) : State :=
  match frameOf s 2 0 with
  | none => s
  | some (_, e) =>
    let lo := e.frame + 0x200000
    let mine := s.mem.filter (fun c => decide (lo ≤ c.1) && decide (c.1 < lo + 0x200000))
    { s with u := { s.u with
        csp := overlayChanges s.u.cspSaved s.u.csp (mine.map (fun c => (c.1 - lo, c.2))), cspSaved := [] } }

/-! ### setvl (R90, R92, R273) -/

/-- A pending reduction that the function registers do not fit (R147, R273). -/
def poolTooSmall (s : State) : Bool :=
  !isDet s && s.t.pend != 0 && decide (s.t.pend < s.t.own) && decide (2 * s.t.pend < fnUsed s.t.arch)

/-- The current thread, whose strip has committed, is switched out alone with its whole context saved (R147, R337). -/
def leaveSaved (s : State) : State :=
  let s1 := saveThread 0 (withArch (drain s) (dropAhead s.t.arch))
  { s1 with t := { s1.t with away := true } }

/-- SETVL and SETVLI: commit, grant, open a strip whose checkpoint is taken after vl is set (R92). Where a pending
reduction does not fit the function registers, the grant is against the new share, and the thread leaves behind its
`setvl` with the old one (log entry 14). -/
def setvlBody (f : Form) (s : State) : Res :=
  let n := (operandY { f with b := f.a, imm := false } s).toNat
  let req := if f.imm then (imm14 f).toNat else n
  let small := poolTooSmall s
  let s0 := commit s
  let s1 := if small then s0 else takeShare s0
  let vl := grantOf req (vlmax (if small then withLanes s0.t.pend s0 else s1)) (vtrBlock s1)
  let s2 := withArch s1 { s1.t.arch with vl := vl }
  let s3 := nextPc (setX s2 f.d (BitVec.ofNat 64 vl))
  let s4 := withArch s3 { s3.t.arch with stripSeq := (s3.t.arch.stripSeq + 1) % 2 ^ 64, ordinal := 0 }
  let s5 := openStrip s4 0
  .done (if small then leaveSaved s5 else s5)

/-- SETVL (R90, R92). -/
def execSetvl (f : Form) (s : State) : Host.Outcome State Fault Refusal := runForm 0x40 f s (setvlBody f)
/-- SETVLI (R90, R92). -/
def execSetvli (f : Form) (s : State) : Host.Outcome State Fault Refusal := runForm 0x40 f s (setvlBody f)

end Sys2Proof.Machine
end

