-- ==== Sys2Proof/Machine/Hornbeam.lean ====
section
/-! DEFINITION. Hornbeam: placement, thread start, ageing, switch-outs, restores, lane reclaim and pool quarantine (R257,
R261, R262, R267 to R275, R337, R338). -/

namespace Sys2Proof.Machine

open Sys2Proof

/-! ### Who can be placed (R262, R267, R337) -/

/-- The candidate that Hornbeam places next: the first in order that can be placed (R267). -/
def chosen (s : State) (part : Nat) : Option Candidate :=
  (inOrder s part).find? (placeable s part)

/-- The frames that the switched-out units which R267 chooses before another candidate lack, each with its job and each
once (R338). -/
def wantedFrames (s : State) (part : Nat) : List (Nat × Nat × CtxEntry) :=
  let passed := ((inOrder s part).takeWhile (fun c => !placeable s part c)).filter (hasRoom s part)
  (passed.flatMap (fun c => match c with
    | .back l uid _ => (backTogether s part l uid).flatMap (fun n => (absentFrames s part n).map (fun e => (l.job, e)))
    | .fresh _ => [])).eraseDups

/-- Ask for one absent frame: WANT, and a kind-9 entry (R338). A frame already asked for is not asked for again. -/
def wantFrame (part : Nat) (s : State) (w : Nat × Nat × CtxEntry) : State :=
  let e := w.2
  if bitsAt e.2.flags 1 1 = 1 then s
  else
    let d := freshEntry s part e.1 e.2
    journal (writeCtx part e.1 { d with flags := bitsAt d.flags 0 1 + 2 } s) part 9 0 w.1 0 (leBytes 4 e.1)

/-- Switched-out units whose frames are away are asked for and passed over. -/
def requestFrames (part : Nat) (s : State) : State := (wantedFrames s part).foldl (wantFrame part) s

/-! ### Placement (R261, R262, R267) -/

/-- A thread of a placed unit before its start. -/
def bornThread (lanes slot : Nat) : Thread :=
  { Thread.none with live := true, slot, own := lanes, dem := lanes, lanes, wait := .start }

/-- The slots of a unit's threads. -/
def unitSlots (r : List Byte) : List Nat := List.range (recThreads r) ++ (if recMcc r then [8] else [])

/-- A frame is taken for a context. -/
def takeFrame (part kind slot : Nat) (l : Launch) (index : Nat) (s : State) : State :=
  match (freeEntries (getPart s part) kind).head? with
  | none => s
  | some (i, e) => writeCtx part i { e with state := 1, slot, handle := handleOf l.entry l.gen, unit := index } s

/-- Read a unit's CSP image by lines (R262). -/
def copyImage : Nat → Nat → Nat → State → Except MemFault State
  | 0, _, _, s => .ok s
  | n + 1, off, va, s =>
    match translateElem s (copySpace s) .load va 64 with
    | .error f => .error f
    | .ok (locs, s1) =>
      match engineError s1 va locs with
      | some f => .error f
      | none =>
        let bs := locs.map (rawByte s1)
        copyImage n (off + 64) (va + 64) { s1 with u := { s1.u with csp := Memory.writeN s1.u.csp off bs } }

/-- The CSP image of a unit is copied; a read that faults ends the unit (R262). -/
def loadCsp (uid : Nat) (r : List Byte) (s : State) : State :=
  if recCspImg r = 0 then s
  else
    match focusUnit uid s with
    | none => s
    | some s1 =>
      match copyImage (recCspLen r / 64) 0 (recCspImg r) s1 with
      | .ok s2 => refocus (here s) s2
      | .error f => endFaulted uid f.code (BitVec.ofNat 64 f.addr) (BitVec.ofNat 64 (recEntry r)) 0 0 s

/-- A candidate has its cluster: nothing gives way to it any longer. -/
def clearBehind (part : Nat) (key : Nat × Nat) (s : State) : State :=
  let clear (u : UnitCtx) : UnitCtx := if u.part = part ∧ u.behind = some key then { u with behind := none } else u
  { s with u := clear s.u, units := s.units.map clear }

/-- One unit of a launch is placed on a cluster: zeroed state, frames, then the CSP image. The priority is frozen with
the last unit (R268). -/
def placeUnit (part : Nat) (l0 : Launch) (s : State) (cluster : Nat) : State :=
  match findLaunch (getPart s part) l0.entry l0.gen with
  | none => s
  | some l =>
    let r := l.record
    let index := l.nextUnit
    let uid := s.nextUid
    let u : UnitCtx :=
      { UnitCtx.empty with uid, part, entry := l.entry, gen := l.gen, index, cluster := some cluster, since := s.time,
                           threads := (unitSlots r).map (bornThread (8 * recLanes r)) }
    let prio := effPrio (getPart s part) l
    let s1 := { s with units := insertUnit u s.units, nextUid := uid + 1 }
    let s2 := mapLaunch s1 part l.entry l.gen (fun l =>
      { l with nextUnit := index + 1, frozen := if index + 1 = recUnits r then some prio else l.frozen })
    let s3 := takeFrame part 2 0 l index s2
    let s4 := (List.range (recThreads r)).foldl (fun s k => takeFrame part 1 k l index s) s3
    loadCsp uid r (clearBehind part (l.order, index) s4)

/-- UNIT_PLACEMENT (R267): the chosen launch's units go to clusters that stand empty. -/
def execUnitPlacement (part cluster : Nat) (s : State) : Host.Outcome State Fault Refusal :=
  runEvent s (fun s =>
    match chosen s part with
    | some (.fresh l) =>
      if !lacksCluster s part (.fresh l) && (holders s part l).contains cluster then
        let rest := (holders s part l).filter (fun c => c != cluster)
        let s1 := requestFrames part s
        some ((cluster :: rest.take (unitsAtOnce l - 1)).foldl (placeUnit part l) s1)
      else none
    | some (.back _ _ _) => none
    | none => none)

/-- The registers of a starting thread (R261, R202). -/
def startArch (s : State) : Arch :=
  let r := myRecord s
  let mcc := s.t.slot == 8
  let x := ((Vector.replicate 64 (0 : W64)).set 1 (BitVec.ofNat 64 (recArgs r))).set 2 (BitVec.ofNat 64 s.t.slot)
  let n := if mcc then 0 else recVregs r
  { Arch.zero with pc := BitVec.ofNat 64 (recEntry r + if mcc then recMccOff r else 0), x, vnreg := n,
                   v := List.replicate n 0, seed := BitVec.ofNat 64 (recSeed r) }

/-- A thread starts: its state of R261 with the handler address of R328, in an open strip. Its first instruction acquires
at device scope (R242): the cluster cache holds nothing older. -/
def startThread (s : State) : State :=
  let t := s.t
  let t1 : Thread :=
    { Thread.none with live := true, slot := t.slot, own := t.own, pend := t.pend, dem := t.dem,
                       lanes := lanesInService s t.own, arch := startArch s, tvec := (myPart s).tvecdef,
                       dictPending := recDict (myRecord s) != 0 }
  openStrip (acquire { s with t := t1 } 4) 5

/-- THREAD_START (R261). -/
def execThreadStart (t : Tid) (s : State) : Host.Outcome State Fault Refusal :=
  threadEvent t s (fun s => if s.t.wait = .start ∧ s.u.cluster.isSome then some (startThread s) else none)

/-- PRIORITY_AGING (R268): time passes until a launch has been ready with a unit unplaced for 8 ms more. -/
def execPriorityAging (part entry : Nat) (s : State) : Host.Outcome State Fault Refusal :=
  runEvent s (fun s =>
    match (getPart s part).launches.find? (fun l => l.entry == entry) with
    | none => none
    | some l =>
      if unplaced l && launchReady s part l then some (tick (8000000 - l.waited % 8000000) s) else none)

/-! ### Switch-outs (R269, R274, R337 to R340) -/

/-- The current thread's strip is rolled back for a switch-out, unless its last rollback switch-out has not been followed
by a close: sfi is written, and the strip counts as opened by the restore (R241, R274). -/
def switchThread (roll : Bool) (s : State) : State :=
  let s1 := drain s
  if roll && !s1.t.noRollback then
    let s2 := rollback s1
    { s2 with t := { s2.t with strip := .empty 5, stripAge := 0, noRollback := true, spc := (match s2.t.mode with
        | .user => s2.t.arch.pc
        | .super => s2.t.spc) } }
  else withArch s1 (dropAhead s1.t.arch)

/-- Prepare one live thread of the current unit and write its frame. -/
def switchSlot (roll : Bool) (uid : Nat) (s : State) (t : Thread) : State :=
  if !t.live || t.away then s
  else
    onThread { uid, slot := t.slot } (fun s =>
      let kept := !(roll && !s.t.noRollback)
      let s1 := switchThread roll s
      if s1.t.slot < 8 then saveThread (if kept then 0 else 1) s1 else s1) s

/-- The engines of the current unit stop: copies run to completion, and a fired tile operation stops at its row (R177,
R340). -/
def stopEngines (s : State) : State :=
  let s1 := finishCopies (2 * s.u.copies.length) s
  { s1 with u := { s1.u with tstop := s1.u.ops.any (fun p => p.fired && !p.done) } }

/-- A unit leaves its cluster, its state kept; one with no live thread whose copies have come to an end may end (R242,
R333). -/
def switchOut (roll : Bool) (s : State) (uid : Nat) : State :=
  match unitAt s uid with
  | none => s
  | some u =>
    let s1 := u.threads.foldl (switchSlot roll uid) s
    let s2 := onUnit uid (fun s => saveUnit (stopEngines s)) s1
    unitCheck uid (mapUnit uid (fun u => { u with cluster := none, yielding := false, cache := [] }) s2)

/-- The units that leave with a unit: all resident units of a CORES launch (R269). -/
def leaveTogether (s : State) (u : UnitCtx) (l : Launch) : List Nat :=
  if recCores l.record then
    ((allUnits s).filter (fun r => r.part == u.part && r.entry == u.entry && r.gen == u.gen && r.cluster.isSome)).map
      (fun r => r.uid)
  else [u.uid]

/-- The unit that goes first among possible victims: lowest effective priority, youngest launch, highest index. -/
def victimBefore (p : PartState) (a b : UnitCtx × Launch) : Bool :=
  let pa := effPrio p a.2
  let pb := effPrio p b.2
  decide (pa < pb) || (pa == pb && (decide (b.2.order < a.2.order)
    || (a.2.order == b.2.order && decide (b.1.index < a.1.index))))

/-- The first of the victims. -/
def firstVictim (p : PartState) : List (UnitCtx × Launch) → Option (UnitCtx × Launch)
  | [] => none
  | v :: vs =>
    match firstVictim p vs with
    | none => some v
    | some w => if victimBefore p w v then some w else some v

/-- The candidate that R267 chooses still lacks clusters. -/
def roomless (s : State) (part : Nat) : Option Candidate :=
  match chosen s part with
  | some c => if lacksCluster s part c then some c else none
  | none => none

/-- Room is made for a candidate: the units that leave with a victim give way to it (R269). DEDUCED: the units of a CORES launch
all leave by the kind of switch-out that the victim's case gives it (log entry 14). -/
def makeRoom (roll : Bool) (c : Candidate) (s : State) (v : UnitCtx × Launch) : State :=
  (leaveTogether s v.1 v.2).foldl (fun s uid =>
    mapUnit uid (fun u => { u with behind := some c.key }) (switchOut roll s uid)) s

/-- PREEMPTION (R269). -/
def execPreemption (part : Nat) (s : State) : Host.Outcome State Fault Refusal :=
  runEvent s (fun s =>
    match roomless s part with
    | none => none
    | some c =>
      let p := getPart s part
      (firstVictim p ((rivals s part c).filter (preempts p c))).map (makeRoom true c s))

/-- QUANTUM_EXPIRY (R269, R284). -/
def execQuantumExpiry (part uid : Nat) (s : State) : Host.Outcome State Fault Refusal :=
  runEvent s (fun s =>
    match roomless s part with
    | none => none
    | some c =>
      let p := getPart s part
      match firstVictim p ((rivals s part c).filter (outlasts s p c)) with
      | none => none
      | some v => if v.1.uid = uid then some (makeRoom false c s v) else none)

/-- IDLE_SWITCH_OUT (R269). -/
def execIdleSwitchOut (uid : Nat) (s : State) : Host.Outcome State Fault Refusal :=
  runEvent s (fun s =>
    match unitAt s uid with
    | none => none
    | some u =>
      match roomless s u.part with
      | none => none
      | some c =>
        match (rivals s u.part c).find? (fun v => v.1.uid == uid) with
        | none => none
        | some v => if unitIdle s v.1 then some (makeRoom false c s v) else none)

/-! ### Restore (R269, R273, R337, R340) -/

/-- A second retirement on a core reduces the lanes of the contexts restored to it, whose registers are held to them
(R341; log entry 16). -/
def reducedLanes (s : State) : State :=
  if isDet s ∨ (retiredHere s).length < 2 ∨ s.t.lanes ≤ lanesInService s s.t.own then s
  else
    let s1 := withLanes s.t.own s
    let hold (a : Arch) : Arch := let b := heldRegs s1 a; { b with vl := min b.vl (vlmax s1) }
    { s1 with t := { s1.t with arch := hold s1.t.arch, ckpt := hold s1.t.ckpt } }

/-- What a restore makes of a thread: its frame's contents, tvec, a fresh reclaim deadline, the lanes that are left, and a
discarded strip (R273, R320, R325, R328, R341). -/
def restoreThread (part : PartState) (s : State) : State :=
  let s0 := if s.t.slot < 8 then reducedLanes (loadThread s) else s
  let s1 := { s0 with t := { s0.t with tvec := part.tvecdef, away := false, pendAt := s0.time } }
  if s1.t.discard then
    let s2 := rollback s1
    { s2 with t := { s2.t with discard := false, strip := .empty 5, stripAge := 0, noRollback := true } }
  else s1

/-- Restore one live thread of a unit; one that has not started takes its tvec at its start, and one that was switched out
alone comes back when its core has its lanes (R273). -/
def restoreSlot (uid : Nat) (s : State) (t : Thread) : State :=
  if !t.live || t.wait == .start || t.away then s
  else onThread { uid, slot := t.slot } (fun s => restoreThread (myPart s) s) s

/-- An engine fault that waits for its handler is raised again (R340). -/
def Suspend.again (x : Suspend) : Suspend := { x with delivered := false }

/-- Hornbeam reads the entries that a test selects again (R338). -/
def refreshCtx (part : Nat) (test : CtxEntry → Bool) (s : State) : State :=
  mapPart s part (fun p => { p with ctx := ((List.range p.ctx.length).zip p.ctx).map (fun e =>
    if test e.2 then freshEntry s part e.1 e.2 else e.2) })

/-- A unit comes back to a cluster; its contexts own their frames again. One with no live thread may end there (R333). -/
def restoreUnit (part uid cluster : Nat) (s : State) : State :=
  match unitAt s uid with
  | none => s
  | some u =>
    let s0 := clearBehind part ((match findLaunch (getPart s part) u.entry u.gen with | some l => l.order | none => 0), u.index)
      (refreshCtx part (ofUnit u) s)
    let s1 := mapUnit uid (fun u =>
      { u with cluster := some cluster, since := s.time, behind := none, tstop := false, tsusp := u.tsusp.map Suspend.again,
               csusp := u.csusp.map (Option.map Suspend.again), gsusp := u.gsusp.map (Option.map Suspend.again) }) s0
    let s2 := u.threads.foldl (restoreSlot uid) (onUnit uid loadUnit s1)
    let gone := (u.threads.filter (fun t => t.away)).map (fun t => t.slot)
    unitCheck uid (mapCtx part (fun e => e.state == 2 && ofUnit u e && !(e.kind == 1 && gone.contains e.slot))
      (fun e => { e with state := 1 }) s2)

/-- The current thread's frame where it is not in DRAM (R338). -/
def absentFrame (s : State) : List (Nat × CtxEntry) := absentWhere s s.u.part (ownsFrame s.u 1 s.t.slot)

/-- A thread of a resident unit that was switched out alone comes back to its share, and the shares of its core are
recomputed, so that its pending reduction applies again; or its frame is asked for; or its sibling is asked to make room
(R273, R290, R338). -/
def restoreAway (s : State) (t : Thread) : State :=
  onThread { uid := s.u.uid, slot := t.slot } (fun s =>
    if s.t.own + siblingShare s ≤ 64 then
      if (absentFrame s).isEmpty then
        let mine := ownsFrame s.u 1 s.t.slot
        let s0 := refreshCtx s.u.part mine s
        let s1 := mapCtx s.u.part mine (fun e => { e with state := 1 }) (restoreThread (myPart s) s0)
        reshare s1.t.slot s1
      else (absentFrame s).foldl (fun s e => wantFrame s.u.part s (myJobId s, e)) s
    else
      let room := 64 - s.t.own
      match siblingOf s with
      | none => s
      | some r =>
        let sib (x : Thread) : Thread := if x.slot = r.slot then setPend x room s.time else x
        { s with u := { s.u with threads := s.u.threads.map sib } }) s

/-- A thread switched out alone can come back, or its frame or its sibling has not been asked. -/
def awayMoves (s : State) (t : Thread) : Bool :=
  match focus { uid := s.u.uid, slot := t.slot } s with
  | none => false
  | some s1 =>
    if s1.t.own + siblingShare s1 ≤ 64 then (absentFrame s1).all (fun e => bitsAt e.2.flags 1 1 == 0)
    else match siblingOf s1 with | some r => r.pend != 64 - s1.t.own | none => false

/-- UNIT_RESTORE (R269): a switched-out unit that is chosen returns to an empty cluster, the units of a CORES launch
together; threads that were switched out alone return to their own unit's cluster. A unit that R267 chooses and whose
frames are away is asked for once and passed over (R338). -/
def execUnitRestore (uid cluster : Nat) (s : State) : Host.Outcome State Fault Refusal :=
  runEvent s (fun s =>
    match unitAt s uid with
    | none => none
    | some u =>
      match u.cluster with
      | some c =>
        match focusUnit uid s with
        | none => none
        | some s1 =>
          let away := (unitThreads s1).filter (fun t => t.away && awayMoves s1 t)
          if c = cluster ∧ !away.isEmpty then some (refocus (here s) (away.foldl restoreAway s1)) else none
      | none =>
        let wanted := (wantedFrames s u.part).filter (fun w =>
          w.2.2.handle == handleOf u.entry u.gen && bitsAt w.2.2.flags 1 1 == 0)
        if !wanted.isEmpty then some (requestFrames u.part s)
        else
          match chosen s u.part with
          | some (.back l v i) =>
            let hs := holders s u.part l
            if v = uid ∧ !lacksCluster s u.part (.back l v i) ∧ hs.contains cluster then
              let us := uid :: (backTogether s u.part l uid).filter (fun n => n != uid)
              let cs := cluster :: hs.filter (fun c => c != cluster)
              some ((us.zip cs).foldl (fun s e => restoreUnit u.part e.1 e.2 s) (requestFrames u.part s))
            else none
          | some (.fresh _) => none
          | none => none)

/-- The reclaim deadline of the current thread, HBCFG.RDL µs from the setting of PEND, has passed (R273, R275). -/
def reclaimDue (s : State) : Bool := decide (1000 * bitsAt (myPart s).hbcfg.toNat 0 16 ≤ s.time - s.t.pendAt)

/-- RECLAIM_DEADLINE_EXPIRY (R273): the victim alone is switched out by rollback, and its lanes pass. -/
def execReclaimDeadlineExpiry (t : Tid) (s : State) : Host.Outcome State Fault Refusal :=
  threadEvent t s (fun s =>
    if isDet s || s.t.pend == 0 || decide (s.t.own ≤ s.t.pend) || s.t.away || s.u.cluster.isNone || s.t.wait == .start
        || !reclaimDue s then none
    else
      let s1 := switchThread true s
      let s2 := if s1.t.slot < 8 then saveThread (if s.t.noRollback then 0 else 1) s1 else s1
      some { s2 with t := { s2.t with away := true } })

/-- POOL_ENTRY_QUARANTINE_END (R257): 1 ms after the entry's release. -/
def execPoolEntryQuarantineEnd (part entry : Nat) (s : State) : Host.Outcome State Fault Refusal :=
  runEvent s (fun s =>
    match (getPart s part).quarantine.find? (fun q => q.1 == entry) with
    | none => none
    | some q =>
      if 1000000 ≤ s.time - q.2 then some (mapPart s part (fun p => { p with quarantine := p.quarantine.erase q }))
      else none)

end Sys2Proof.Machine
end

