-- ==== Sys2Proof/Machine/Ring.lean ====
section
/-! DEFINITION. The host command ring and the application die's own writes to the device (R207, R278, R356). -/

namespace Sys2Proof.Machine

open Sys2Proof

/-! ### The ring (R278) -/

/-- Slots of the ring. -/
def ringSize (p : PartState) : Nat := 2 ^ (bitsAt p.adq.toNat 8 4 + 4)

/-- The physical address of a slot. -/
def slotAddr (p : PartState) (i : Nat) : Nat := bitsAt p.adq.toNat 12 40 * 4096 + 64 * (i % ringSize p)

/-- A slot of the ring, as it was read. -/
structure Slot where
  op : Nat
  job : Nat
  arg : Nat
  reserved : Bool
  deriving DecidableEq, Repr

/-- The slot that HEAD names, where the ring is served and the application die has filled it. -/
def headSlot (s : State) (part : Nat) : Option Slot :=
  let p := getPart s part
  if bitsAt p.adq.toNat 0 1 = 0 ∨ p.adqHead = p.adqTail ∨ (diesOf s.config part).isEmpty then none
  else
    let b := Memory.readN s.mem (slotAddr p p.adqHead) 64
    some { op := fieldAt b 0 1, job := fieldAt b 2 2, arg := fieldAt b 8 8,
           reserved := !zeroAt b 4 4 || !zeroAt b 40 24 }

/-- A slot that the ring cannot process: no valid job, an unknown OP, or a nonzero reserved byte. -/
def slotBad (p : PartState) (c : Slot) : Bool :=
  !(getJob p c.job).valid || c.op == 0 || decide (4 < c.op) || c.reserved

/-- The X4 writes a slot: RESULT, CAUSE and JSEQ, and then STATE. -/
def writeSlot (part i state result cause jseq : Nat) (s : State) : State :=
  let a := slotAddr (getPart s part) i
  deviceWrite (a + 1) (leBytes 1 state) (deviceWrite (a + 16) (leBytes 8 result ++ leBytes 8 cause ++ leBytes 8 jseq) s)

/-- HEAD passes the slot taken. -/
def advanceHead (part : Nat) (s : State) : State :=
  mapPart s part (fun p => { p with adqHead := (p.adqHead + 1) % 65536 })

/-- Take the slot at HEAD for a command: its job's partition, the slot and its index. -/
def ringEvent (part op : Nat) (s : State) (body : Slot → Nat → State → State) : Host.Outcome State Fault Refusal :=
  runEvent s (fun s =>
    match headSlot s part with
    | none => none
    | some c =>
      let p := getPart s part
      if slotBad p c || c.op != op then none else some (body c p.adqHead (advanceHead part s)))

/-- STATE 3 with a Launch fault. -/
def failLaunch (part i reason arg : Nat) (s : State) : State :=
  writeSlot part i 3 (launchVal reason (BitVec.ofNat 64 arg)).toNat 0x13 0 s

/-- The ring's own translations stand for no cluster (R278, R314). -/
def ringSpace (s : State) (part job : Nat) : Space :=
  let j := getJob (getPart s part) job
  { part, asid := bitsAt j.par.toNat 48 16, root := j.root.toNat, user := false, agent := 192 + part }

/-- The bytes of a launch record that lie below the CSP window. -/
def recordBelow (va : Nat) : Nat := min 128 (cspBase - va)

/-- The launch record of a ring command (R278): a record with a byte in the CSP window is not read, but an Access violation.
A fault reports the record's address, as `launch` does (R280). -/
def ringRecord (part job va : Nat) (s : State) : Except MemFault (List Byte × State) :=
  let sp := ringSpace s part job
  let fail (code : Nat) : MemFault := { code, addr := va }
  match elemFault s sp .load va (recordBelow va), translateRun sp .load (recordBelow va) va s with
  | some e, _ => .error (fail e.code)
  | none, .error e => .error (fail e.code)
  | none, .ok (locs, s1) =>
    if recordBelow va < 128 then .error (fail 0x08)
    else
      match engineError s1 va locs with
      | some e => .error (fail e.code)
      | none => .ok (locs.map (fun l => Memory.read s1.mem l), s1)

/-- The part of a launch command after its record has been read. -/
def ringLaunch (part i : Nat) (c : Slot) (rec_ : List Byte) (s : State) : State :=
  match recordReason s part c.job rec_ true false with
  | some n => failLaunch part i n c.arg s
  | none =>
    let p := getPart s part
    match refusal p c.job with
    | some st => writeSlot part i 2 st 0 0 s
    | none =>
      let seq := p.jrnHead
      let h := handleOf (freeEntry p) (freeGen p)
      let s1 := journal s part 1 0 c.job 0
        (leBytes 4 h ++ leBytes 4 (recUnits rec_) ++ leBytes 8 c.arg ++ leBytes 8 (recArgs rec_))
      let a := acceptLaunch part c.job rec_ (.outside 0 seq) s1
      writeSlot part i 1 a.1 0 seq a.2

/-- HOST_LAUNCH_COMMAND (R278). -/
def execHostLaunchCommand (part : Nat) (s : State) : Host.Outcome State Fault Refusal :=
  ringEvent part 1 s (fun c i s =>
    if c.arg % 64 ≠ 0 then writeSlot part i 3 c.arg 0x06 0 s
    else
      match ringRecord part c.job c.arg s with
      | .error e => writeSlot part i 3 e.addr e.code 0 s
      | .ok (rec_, s1) => ringLaunch part i c rec_ s1)

/-- The handle of a command; a command with an invalid one fails with reason 6. -/
def ringHandle (part i : Nat) (c : Slot) (s : State) (body : Nat → State → State) : State :=
  let h := c.arg % 2 ^ 32
  match parseHandle h with
  | none => failLaunch part i 6 h s
  | some _ => body h s

/-- HOST_READ_COUNTER_COMMAND (R278, R282). -/
def execHostReadCounterCommand (part : Nat) (s : State) : Host.Outcome State Fault Refusal :=
  ringEvent part 2 s (fun c i s => ringHandle part i c s (fun h s =>
    writeSlot part i 1 (handleWord (getPart s part) c.job h).toNat 0 0 s))

/-- HOST_CANCEL_COMMAND (R278, R283). -/
def execHostCancelCommand (part : Nat) (s : State) : Host.Outcome State Fault Refusal :=
  ringEvent part 3 s (fun c i s => ringHandle part i c s (fun h s =>
    writeSlot part i 1 0 0 0 (cancelHandle part c.job h s)))

/-- HOST_JOIN_COMMAND (R278): the ring goes on while the join waits. -/
def execHostJoinCommand (part : Nat) (s : State) : Host.Outcome State Fault Refusal :=
  ringEvent part 4 s (fun c i s => ringHandle part i c s (fun h s =>
    let j : HostJoin := { slot := i, job := c.job, handle := BitVec.ofNat 64 h, final := none }
    mapPart s part (fun p => { p with hostJoins := p.hostJoins ++ [j] })))

/-- A host join names its job. -/
def HostJoin.ofJob (j : HostJoin) : Bool := bitsAt j.handle.toNat 28 4 == 4

/-- The status word of a host join that is over: its counter is DONE, or for a job termination detection has found the job
complete while the join waited (R244, R278). -/
def hostJoinWord (p : PartState) (j : HostJoin) : Option W64 :=
  match j.final with
  | some w => some w
  | none =>
    if !j.ofJob && handleDone p j.job j.handle.toNat then some (handleWord p j.job j.handle.toNat) else none

/-- HOST_JOIN_COMPLETE (R278). -/
def execHostJoinComplete (part slot : Nat) (s : State) : Host.Outcome State Fault Refusal :=
  runEvent s (fun s =>
    let p := getPart s part
    match p.hostJoins.find? (fun j => j.slot == slot) with
    | none => none
    | some j =>
      (hostJoinWord p j).map (fun w =>
        writeSlot part slot 1 w.toNat 0 0 (mapPart s part (fun p => { p with hostJoins := p.hostJoins.erase j }))))

/-- HOST_COMMAND_INVALID (R278). -/
def execHostCommandInvalid (part : Nat) (s : State) : Host.Outcome State Fault Refusal :=
  runEvent s (fun s =>
    match headSlot s part with
    | none => none
    | some c =>
      let p := getPart s part
      if slotBad p c then some (failLaunch part p.adqHead 1 c.arg (advanceHead part s)) else none)

/-- The partition exists. -/
def hasPart (s : State) (part : Nat) : Bool := !(diesOf s.config part).isEmpty

/-- ADQTAIL_WRITE (R278). DESIGN CHOICE: a value with reserved bits set leaves its bits [15:0] (log entry 25). -/
def execAdqtailWrite (part : Nat) (v : W64) (s : State) : Host.Outcome State Fault Refusal :=
  runEvent s (fun s =>
    if hasPart s part then some (mapPart s part (fun p => { p with adqTail := v.toNat % 65536 })) else none)

/-- ADQ_WRITE (R278): an excluded LOG2N or a reserved bit leaves the register as it is (log entry 25). -/
def execAdqWrite (part : Nat) (v : W64) (s : State) : Host.Outcome State Fault Refusal :=
  runEvent s (fun s =>
    if !hasPart s part then none
    else if bitsAt v.toNat 52 12 ≠ 0 ∨ bitsAt v.toNat 1 7 ≠ 0 ∨ 11 < bitsAt v.toNat 8 4 then some s
    else some (mapPart s part (fun p => { p with adq := v })))

/-- CCCFG_WRITE (R207): only while no unit is resident on the cluster; 11 and a reserved bit are never accepted. -/
def execCccfgWrite (cluster : Nat) (v : W64) (s : State) : Host.Outcome State Fault Refusal :=
  runEvent s (fun s =>
    if 128 ≤ cluster ∨ (allUnits s).any (fun u => u.cluster == some cluster) then none
    else if 3 ≤ v.toNat then some s
    else
      let rest := s.cccfg.filter (fun e => e.1 != cluster)
      some { s with cccfg := if v.toNat = 0 then rest else assocSet rest cluster v.toNat })

/-- DOORBELL_WRITE (R356): Ranistam receives the write as a management command. The endpoint takes it from stage 5 of bring-up
on; before that there is no such write (log entry 6). -/
def execDoorbellWrite (off : Nat) (v : W64) (s : State) : Host.Outcome State Fault Refusal :=
  if !s.powered then .fault .powerOff
  else if 5 ≤ s.stage ∧ off < 65536 then .next { s with doorbells := s.doorbells ++ [(off, v)] }
  else .fault .noSuchAgent

end Sys2Proof.Machine
end

