-- ==== Sys2Proof/Machine/Fabric.lean ====
section
/-! DEFINITION. Shawm: groups, collectives, compression, packets between devices, termination and cancel messages (R286,
R298 to R306). -/

namespace Sys2Proof.Machine

open Sys2Proof

/-! ### Descriptors (R300, R301) -/

/-- A collective descriptor. -/
structure CollDesc where
  src : Nat
  dst : Nat
  resid : Nat
  stat : Nat
  count : Nat
  op : Nat
  ty : Nat
  redop : Nat
  flags : Nat
  group : Nat
  root : Nat
  policy : Nat
  deriving DecidableEq, Repr

/-- The fields of the 64 bytes. -/
def collDesc (b : List Byte) : CollDesc :=
  { src := fieldAt b 0 8, dst := fieldAt b 8 8, resid := fieldAt b 16 8, stat := fieldAt b 24 8, count := fieldAt b 32 4,
    op := fieldAt b 36 1, ty := fieldAt b 37 1, redop := fieldAt b 38 1, flags := fieldAt b 39 1, group := fieldAt b 40 1,
    root := fieldAt b 41 2, policy := fieldAt b 43 1 }

def CollDesc.elemTy (d : CollDesc) : ElemTy := (ElemTy.ofCode d.ty).getD .f32
def CollDesc.bytes (d : CollDesc) : Nat := d.elemTy.width / 8
def CollDesc.arr (d : CollDesc) : Bool := bitsAt d.flags 0 1 == 1
/-- The compression code of a tier. -/
def CollDesc.code (d : CollDesc) (tier : Nat) : Nat := bitsAt d.policy (2 * tier) 2
/-- A collective that reduces: allreduce or reduce-scatter. -/
def CollDesc.reduces (d : CollDesc) : Bool := decide (d.op ≤ 1)
/-- Elements that a collective over `m` members moves: those of the whole result before it is divided. -/
def CollDesc.total (d : CollDesc) (m : Nat) : Nat := if d.op = 0 ∨ d.op = 3 then d.count else d.count * m
/-- Chunks of 65,536 elements (R301). -/
def CollDesc.chunks (d : CollDesc) (m : Nat) : Nat := ceilDiv (d.total m) 65536

/-- The members of a group of a job; none when it is not registered. -/
def groupOf (j : Job) (n : Nat) : Option (List Member) := (j.groups.find? (fun g => g.1 == n)).map (fun g => g.2)

/-- The members that are dies of this device, with their ranks in the group. -/
def localMembers (j : Job) (ms : List Member) : List (Nat × Member) :=
  ((List.range ms.length).zip ms).filter (fun e => e.2.rank == j.rank)

/-- The descriptor fails the checks of R300 and R301, or its group is not registered with the die as a member. -/
def collBad (j : Job) (die : Nat) (b : List Byte) : Bool :=
  let d := collDesc b
  match groupOf j d.group with
  | none => true
  | some ms =>
    !(localMembers j ms).any (fun e => e.2.die == die)
    || decide (4 < d.op) || !([1, 2, 3, 4, 13, 14, 18, 19].contains d.ty) || decide (2 < d.redop)
    || (!d.reduces && d.redop != 0) || decide (1 < d.flags) || (d.op != 3 && d.root != 0)
    || (d.op == 3 && decide (ms.length ≤ d.root)) || !zeroAt b 44 20 || d.stat % 8 != 0
    || (d.resid != 0 && d.code 3 != 3)
    || (d.policy != 0 && !(d.reduces && d.redop == 0 && d.ty == 2))
    || d.code 0 == 3 || d.code 1 == 3 || d.code 2 == 3 || (d.arr && d.policy != 0)

/-- COLL (R302): the descriptor is read before its alignment is checked. -/
def execColl (f : Form) (s : State) : Host.Outcome State Fault Refusal :=
  runForm 0xE7 f s (fun s => afterEpoch s (fun s =>
    let va := getX s f.a
    match readRecord s va.toNat 64 with
    | .error c => .faultR c s
    | .ok (desc, s1) =>
      if va.toNat % 64 ≠ 0 then faultR 0x06 va s1
      else if collBad (myJob s1) (myDie s1) desc then config s1
      else .done (nextPc (addCmd s1 (.coll (f.d.toNat - 16) desc (myDie s1))))))

/-- Insert a rank in rising order. -/
def insertRank (r : Nat) : List Nat → List Nat
  | [] => [r]
  | x :: xs => if r < x then r :: x :: xs else if r = x then x :: xs else x :: insertRank r xs

/-- GROUP_REGISTRATION (R298): the group's members, this device's own rank in the job, and the devices of other ranks, by
which LNKSTAT.PEER names them (R294). The device ranks that the members name are ranks of the job (R317; log entry 27). -/
def execGroupRegistration (part job num : Nat) (g : Group) (s : State) : Host.Outcome State Fault Refusal :=
  runEvent s (fun s =>
    if !hasPart s part || decide (255 < num) || g.members.isEmpty || decide (4096 < g.members.length) then none
    else
      some (mapPart s part (fun p =>
        let j := getJob p job
        let others := j.ranks.filter (fun r => r != j.rank)
        setJob p { j with groups := (num, g.members) :: j.groups.filter (fun g => g.1 != num), rank := g.own,
                          devices := g.devices ++ j.devices.filter (fun e => !g.devices.any (fun x => x.1 == e.1)),
                          ranks := g.members.foldl (fun rs m => insertRank m.rank rs) (insertRank g.own others) })))

/-! ### Compression (R300) -/

/-- The canonical NaN of f32. -/
def nan32 : Nat := FloatFmt.fp32.nanCode

/-- A code's value. -/
def val32 (c : Nat) : Exact := FloatFmt.fp32.decode c

/-- A value rounded to f32. -/
def round32 (x : Exact) : Nat := FloatFmt.fp32.round x .rne

/-- A NaN or an infinity. -/
def special32 (c : Nat) : Bool := (val32 c).isNan || (val32 c).isInf

/-- Code 1. -/
def throughBf16 (c : Nat) : Nat := round32 (FloatFmt.bf16.decode (FloatFmt.bf16.round (val32 c) .rne))

/-- floor(log2) of a magnitude; none for zero. -/
def log2Of (x : Exact) : Option Int :=
  match x with
  | .val _ t k _ => some (binade t k)
  | _ => none

/-- The larger magnitude. -/
def maxMag32 (cs : List Nat) : Exact :=
  cs.foldl (fun m c =>
    let x := (val32 c).abs
    match m.cmp x with
    | some o => if o < 0 then x else m
    | none => m) (.zero false)

/-- Code 2 on one block. -/
def throughMx (cs : List Nat) : List Nat :=
  if cs.any special32 then cs.map (fun _ => nan32)
  else
    let x : Int := match log2Of (maxMag32 cs) with
      | some e => clampTo 0 254 (e - 8 + 127)
      | none => 0
    cs.map (fun c =>
      round32 ((FloatFmt.e4m3.decode (FloatFmt.e4m3.round ((val32 c).scale (127 - x)) .rne)).scale (x - 127)))

/-- The least and the greatest value of a group, with zero. -/
def leastOf (cs : List Nat) : Exact :=
  cs.foldl (fun m c => match m.cmp (val32 c) with | some o => if o > 0 then val32 c else m | none => m) (.zero false)
def greatestOf (cs : List Nat) : Exact :=
  cs.foldl (fun m c => match m.cmp (val32 c) with | some o => if o < 0 then val32 c else m | none => m) (.zero false)

/-- Code 3 on one group: what is sent up, and the new residual, for the partial values and the residuals. -/
def throughInt4 (ps rs : List Nat) : List (Nat × Nat) :=
  let us := (ps.zip rs).map (fun e => round32 ((val32 e.1).add (val32 e.2) .rne))
  if us.any special32 then us.map (fun u => (nan32, round32 ((val32 u).add (val32 nan32) .rne)))
  else
    let lo := leastOf us
    let hi := greatestOf us
    let s := FloatFmt.fp16.decode (FloatFmt.fp16.round ((hi.add lo.neg .rne).div (.ofInt 15)) .rne)
    let z : Int := if s.isZero then 0 else clampTo 0 15 ((((lo.neg).div s).roundInt .rne).getD 0)
    us.map (fun u =>
      let q : Int := if s.isZero then z else clampTo 0 15 ((((val32 u).div s).roundInt .rne).getD 0 + z)
      let d := round32 (s.mul (.ofInt (q - z)))
      (d, round32 ((val32 u).add (val32 d).neg .rne)))

/-- The values that a child sends up at a tier under codes 0 to 2. -/
def sentUp (code : Nat) (cs : List Nat) : List Nat :=
  match code with
  | 0 => cs
  | 1 => cs.map throughBf16
  | _ => (blocksOf 32 cs).flatMap throughMx

/-- The values and residuals of a child under code 3. -/
def sentUpInt4 (ps rs : List Nat) : List (Nat × Nat) :=
  ((blocksOf 64 ps).zip (blocksOf 64 rs)).flatMap (fun e => throughInt4 e.1 e.2)

/-! ### The reduction tree (R299) -/

/-- A subtree: its lowest member rank, the coordinates of that member, its values. -/
structure Sub where
  lead : Nat
  at_ : Member
  vals : List Nat
  deriving DecidableEq, Repr

/-- Two children lie in one subtree of a tier. -/
def sameAt (tier : Nat) (a b : Member) : Bool :=
  match tier with
  | 0 => a.campus == b.campus && a.rack == b.rack && a.rank == b.rank
  | 1 => a.campus == b.campus && a.rack == b.rack
  | 2 => a.campus == b.campus
  | _ => true

/-- Put a child into the subtree that it belongs to. -/
def joinSub (tier : Nat) (x : Sub) : List (List Sub) → List (List Sub)
  | [] => [[x]]
  | g :: gs =>
    match g with
    | y :: _ => if sameAt tier x.at_ y.at_ then (g ++ [x]) :: gs else g :: joinSub tier x gs
    | [] => g :: joinSub tier x gs

/-- Children that arrived first come first (FLAGS.ARR), each of them once; one not named in the order comes last. -/
def byArrival (order : List Nat) (g : List Sub) : List Sub :=
  let named := order.eraseDups.filterMap (fun n => g.find? (fun x => x.lead == n))
  named ++ g.filter (fun x => !order.contains x.lead)

/-- One reduction of two elements. -/
def reduceCodes (d : CollDesc) (a b : Nat) : Nat :=
  let t := d.elemTy
  match d.redop with
  | 0 =>
    match t.fmt with
    | some f => f.round ((f.decode a).add (f.decode b) .rne) .rne
    | none => (a + b) % 2 ^ t.width
  | 1 => minMaxCode true 0 t a b
  | _ => minMaxCode false 0 t a b

/-- Fold the children's vectors from the left. -/
def foldVecs (d : CollDesc) : List (List Nat) → List Nat
  | [] => []
  | v :: vs => vs.foldl (fun acc w => (acc.zip w).map (fun e => reduceCodes d e.1 e.2)) v

/-- The subtrees of a tier from its children. -/
def tierUp (d : CollDesc) (order : List Nat) (tier : Nat) (subs : List Sub) : List Sub :=
  (subs.foldl (fun gs x => joinSub tier x gs) []).filterMap (fun g =>
    match g with
    | [] => none
    | x :: _ =>
      let kids := if d.arr then byArrival order g else g
      some { x with vals := foldVecs d (kids.map (fun k => sentUp (d.code tier) k.vals)) })

/-- The whole tree over the members' vectors: the result, and the new residuals of tier-2 representatives. -/
def reduceTree (d : CollDesc) (order : List Nat) (resid : Nat → List Nat) (subs : List Sub) :
    List Nat × List (Nat × List Nat) :=
  let two := tierUp d order 2 (tierUp d order 1 (tierUp d order 0 subs))
  if d.code 3 = 3 then
    let sent := two.map (fun x => (x.lead, sentUpInt4 x.vals (resid x.lead)))
    (foldVecs d (sent.map (fun e => e.2.map (fun v => v.1))), sent.map (fun e => (e.1, e.2.map (fun v => v.2))))
  else
    match tierUp d order 3 two with
    | x :: _ => (x.vals, [])
    | [] => ([], [])

/-! ### Shawm's accesses -/

/-- The address space of a collective: its job's, with U (R313). -/
def collSpace (s : State) (part : Nat) (c : Coll) : Space :=
  let j := getJob (getPart s part) c.job
  { part, asid := bitsAt j.par.toNat 48 16, root := j.root.toNat, user := true, agent := 128 + c.die }

/-- Locations of an element; the CSP window of a unit that is gone is no memory. -/
def collLocs (part : Nat) (c : Coll) (acc : Access) (va n : Nat) (s : State) : Except MemFault (List Nat × State) :=
  if cspBase ≤ va ∧ s.u.uid = 0 then .error { code := 0x08, addr := va }
  else translateRun (collSpace s part c) acc n (va % 2 ^ 64) s

/-- Read elements of `w` bytes at listed indices from a base, with the issuing unit as the current one. -/
def collRead (part : Nat) (c : Coll) (base w : Nat) : List Nat → State → Except MemFault (List Nat × State)
  | [], s => .ok ([], s)
  | i :: is, s =>
    let va := (base + w * i) % 2 ^ 64
    match collLocs part c .load va w s with
    | .error f => .error f
    | .ok (locs, s1) =>
      match engineError s1 va locs with
      | some f => .error f
      | none =>
        match collRead part c base w is s1 with
        | .error f => .error f
        | .ok (vs, s2) => .ok (leValue (locs.map (rawByte s1)) :: vs, s2)

/-- The bytes that elements at listed indices write. -/
def collStore (part : Nat) (c : Coll) (base w : Nat) : List (Nat × Nat) → State → Except MemFault (List StoreByte × State)
  | [], s => .ok ([], s)
  | (i, v) :: xs, s =>
    match collLocs part c .store ((base + w * i) % 2 ^ 64) w s with
    | .error f => .error f
    | .ok (locs, s1) =>
      match collStore part c base w xs s1 with
      | .error f => .error f
      | .ok (ws, s2) => .ok (maskedBytes locs v (2 ^ (8 * w) - 1) ++ ws, s2)

/-- With the unit that issued a collective as the current one, or none where it is gone. -/
def atColl {α : Type} (c : Coll) (f : State → Except MemFault (α × State)) (s : State) : Except MemFault (α × State) :=
  let s1 := (focusUnit c.uid s).getD (park s)
  match f s1 with
  | .error e => .error e
  | .ok (a, s2) => .ok (a, refocus (here s) s2)

/-- Write bytes for a collective. -/
def collWrite (c : Coll) (ws : List StoreByte) (s : State) : State :=
  let s1 := (focusUnit c.uid s).getD (park s)
  refocus (here s) (engineWrite s1 ws)

/-! ### The life of a collective (R302, R303) -/

/-- The first collective of a job on a timeline of a die. -/
def headColl (p : PartState) (job gl die : Nat) : Option Coll :=
  p.colls.find? (fun c => c.job == job && c.gl == gl && c.die == die)

/-- The local members of a collective's group with their own collectives, where every one has issued the same number on
the same group. -/
def collTeam (p : PartState) (c : Coll) : Option (List (Nat × Coll)) :=
  let j := getJob p c.job
  match groupOf j (collDesc c.desc).group with
  | none => none
  | some ms =>
    (localMembers j ms).foldr (fun e acc =>
      match acc, headColl p c.job c.gl e.2.die with
      | some xs, some x =>
        if x.num = c.num ∧ (collDesc x.desc).group = (collDesc c.desc).group then some ((e.1, x) :: xs) else none
      | _, _ => none) (some [])

/-- The members of a collective's group. -/
def collMembers (p : PartState) (c : Coll) : List Member := (groupOf (getJob p c.job) (collDesc c.desc).group).getD []

/-- The ranks of the members on other devices. -/
def remoteRanks (p : PartState) (c : Coll) : List Nat :=
  let ms := collMembers p c
  (List.range ms.length).filter (fun i => !((localMembers (getJob p c.job) ms).any (fun e => e.1 == i)))

/-- One collective changed. -/
def mapColl (part : Nat) (c : Coll) (f : Coll → Coll) (s : State) : State :=
  mapPart s part (fun p => { p with colls := p.colls.map (fun x =>
    if x.job = c.job ∧ x.gl = c.gl ∧ x.num = c.num ∧ x.die = c.die then f x else x) })

/-- The collectives of a team changed. -/
def mapTeam (part : Nat) (team : List (Nat × Coll)) (f : Coll → Coll) (s : State) : State :=
  team.foldl (fun s e => mapColl part e.2 f s) s

/-- The fields in which descriptors must agree (R302). -/
def agreeing (b : List Byte) : List Byte := (b.drop 32).take 8 ++ (b.drop 41).take 3

/-- The team of the first collective on a timeline that a test selects. -/
def findTeam (p : PartState) (job gl : Nat) (test : Coll → Bool) : Option (Coll × List (Nat × Coll)) :=
  match p.colls.find? (fun c => c.job == job && c.gl == gl && test c && (collTeam p c).isSome) with
  | none => none
  | some c => (collTeam p c).map (fun t => (c, t))

/-- The code with which a team is matched: 3 where a member has been lost before (R303), else 2 where descriptors differ. -/
def matchCode (team : List (Nat × Coll)) (same : Bool) : Nat :=
  if team.any (fun e => e.2.code == 3) then 3 else if same then 0 else 2

/-- COLLECTIVE_MATCH (R302). -/
def execCollectiveMatch (part job gl : Nat) (remote : List RemoteDesc) (s : State) : Host.Outcome State Fault Refusal :=
  runEvent s (fun s =>
    let p := getPart s part
    match findTeam p job gl (fun c => !c.running) with
    | none => none
    | some (c, team) =>
      if !((remoteRanks p c).all (fun i => remote.any (fun r => r.member == i))) then none
      else
        let others := (remote.filter (fun r => (remoteRanks p c).contains r.member)).map (fun r => r.desc)
        let same := (team.map (fun e => e.2.desc) ++ others).all (fun d => agreeing d == agreeing c.desc)
        some (mapTeam part team (fun x => { x with since := s.time, running := true, code := matchCode team same }) s))

/-- A data fault inside Shawm suspends the collective of a unit until its Engine fault has been taken (R303; log entry
26); a unit with no live thread ends (R333). With the unit gone, the member counts as lost. -/
def suspendColl (part : Nat) (team : List (Nat × Coll)) (c : Coll) (f : MemFault) (s : State) : State :=
  if (unitAt s c.uid).isSome then
    unitCheck c.uid (mapUnit c.uid (fun u =>
      if h : c.gl < 8 then
        { u with gsusp := u.gsusp.set c.gl (some { sub := f.code, tval := BitVec.ofNat 64 f.addr, telem := 16 + c.gl,
                                                   issuer := c.slot, delivered := false }) h }
      else u) s)
  else mapTeam part team (fun x => { x with code := 3 }) s

/-- The suspension of a collective's unit on its timeline. -/
def collSuspended (s : State) (c : Coll) : Option Suspend :=
  match unitAt s c.uid with
  | none => none
  | some u => u.gsusp.toList.getD c.gl none

/-- A suspension of the team has not been delivered. -/
def teamHeld (s : State) (team : List (Nat × Coll)) : Bool :=
  team.any (fun e => match collSuspended s e.2 with | some x => !x.delivered | none => false)

/-- The team's delivered suspensions are over. -/
def releaseTeam (team : List (Nat × Coll)) (s : State) : State :=
  team.foldl (fun s e =>
    if (collSuspended s e.2).isSome then
      mapUnit e.2.uid (fun u => if h : e.2.gl < 8 then { u with gsusp := u.gsusp.set e.2.gl none h } else u) s
    else s) s

/-- The elements of a chunk, as indices of the whole. -/
def chunkRange (d : CollDesc) (m k : Nat) : List Nat :=
  (List.range (min 65536 (d.total m - 65536 * k))).map (fun i => 65536 * k + i)

/-- The indices of its SRC that a member sends for a chunk, the receivers' ranks given for an all-to-all. -/
def sourceIdx (d : CollDesc) (member : Nat) (receivers idx : List Nat) : List Nat :=
  match d.op with
  | 0 => idx
  | 1 => idx
  | 2 => (idx.filter (fun g => g / d.count == member)).map (fun g => g % d.count)
  | 3 => if d.root = member then idx else []
  | _ => receivers.flatMap (fun r => (idx.filter (fun g => g / d.count == member)).map (fun g => r * d.count + g % d.count))

/-- The members' source values of a chunk: read by the local members, brought for the others. -/
def gather (part : Nat) (d : CollDesc) (receivers idx : List Nat) (remote : List RemoteData) :
    List (Nat × Coll) → State → Except (Coll × MemFault) (List (Nat × List Nat) × State)
  | [], s =>
    .ok (remote.map (fun r => (r.member,
      (List.range (r.src.length / d.bytes)).map (fun i => fieldAt r.src (d.bytes * i) d.bytes))), s)
  | (m, c) :: team, s =>
    match atColl c (collRead part c (collDesc c.desc).src d.bytes (sourceIdx d m receivers idx)) s with
    | .error f => .error (c, f)
    | .ok (vs, s1) =>
      match gather part d receivers idx remote team s1 with
      | .error f => .error f
      | .ok (rest, s2) => .ok ((m, vs) :: rest, s2)

/-- The residuals of a chunk at the local members that are tier-2 representatives, and those brought. -/
def gatherResid (part : Nat) (d : CollDesc) (leads idx : List Nat) (remote : List RemoteData) :
    List (Nat × Coll) → State → Except (Coll × MemFault) (List (Nat × List Nat) × State)
  | [], s =>
    .ok (remote.map (fun r => (r.member, (List.range (r.resid.length / 4)).map (fun i => fieldAt r.resid (4 * i) 4))), s)
  | (m, c) :: team, s =>
    let want := d.code 3 == 3 && leads.contains m
    match atColl c (collRead part c (collDesc c.desc).resid 4 (if want then idx else [])) s with
    | .error f => .error (c, f)
    | .ok (vs, s1) =>
      match gatherResid part d leads idx remote team s1 with
      | .error f => .error f
      | .ok (rest, s2) => .ok ((m, vs) :: rest, s2)

/-- The value list of a member. -/
def valuesOf (xs : List (Nat × List Nat)) (m : Nat) : List Nat :=
  match xs.find? (fun e => e.1 == m) with
  | some e => e.2
  | none => []

/-- What a chunk writes at a member: index in DST and value. -/
def chunkOut (d : CollDesc) (member : Nat) (receivers idx : List Nat) (result : List Nat) (srcs : List (Nat × List Nat)) :
    List (Nat × Nat) :=
  match d.op with
  | 0 => idx.zip result
  | 1 => ((idx.zip result).filter (fun e => e.1 / d.count == member)).map (fun e => (e.1 % d.count, e.2))
  | 2 =>
    let owners := (idx.map (fun g => g / d.count)).eraseDups
    owners.flatMap (fun o => (idx.filter (fun g => g / d.count == o)).zip (valuesOf srcs o))
  | 3 => idx.zip (valuesOf srcs d.root)
  | _ =>
    let owners := (idx.map (fun g => g / d.count)).eraseDups
    let place := (receivers.takeWhile (fun r => r != member)).length
    owners.flatMap (fun o =>
      let mine := idx.filter (fun g => g / d.count == o)
      mine.zip ((valuesOf srcs o).drop (place * mine.length)))

/-- The bytes that a chunk writes at each local member. -/
def chunkStores (part : Nat) (d : CollDesc) (receivers idx result : List Nat) (srcs resids : List (Nat × List Nat)) :
    List (Nat × Coll) → State → Except (Coll × MemFault) (List (Coll × List StoreByte) × State)
  | [], s => .ok ([], s)
  | (m, c) :: team, s =>
    match atColl c (collStore part c (collDesc c.desc).dst d.bytes (chunkOut d m receivers idx result srcs)) s with
    | .error f => .error (c, f)
    | .ok (ws, s1) =>
      match atColl c (collStore part c (collDesc c.desc).resid 4 (idx.zip (valuesOf resids m))) s1 with
      | .error f => .error (c, f)
      | .ok (rs, s2) =>
        match chunkStores part d receivers idx result srcs resids team s2 with
        | .error f => .error f
        | .ok (rest, s3) => .ok ((c, ws ++ rs) :: rest, s3)

/-- The representatives of the tier-2 subtrees of a group. -/
def tierTwoLeads (ms : List Member) : List Nat :=
  let subs : List Sub := ((List.range ms.length).zip ms).map (fun e => { lead := e.1, at_ := e.2, vals := [] })
  (subs.foldl (fun gs x => joinSub 2 x gs) []).filterMap (fun g => (g.head?).map (fun x => x.lead))

/-- One chunk of a running collective: the state with the chunk's bytes, or the fault that stops it. -/
def runChunk (part : Nat) (c : Coll) (team : List (Nat × Coll)) (remote : List RemoteData) (order : List Nat) (s : State) :
    Except (Coll × MemFault) State :=
  let ms := collMembers (getPart s part) c
  let d := collDesc c.desc
  let idx := chunkRange d ms.length c.chunk
  let receivers := team.map (fun e => e.1)
  match gather part d receivers idx remote team s with
  | .error f => .error f
  | .ok (srcs, s1) =>
    match gatherResid part d (tierTwoLeads ms) idx remote team s1 with
    | .error f => .error f
    | .ok (rs, s2) =>
      let subs : List Sub := ((List.range ms.length).zip ms).map (fun e => { lead := e.1, at_ := e.2, vals := valuesOf srcs e.1 })
      let r := if d.reduces then reduceTree d order (valuesOf rs) subs else ([], [])
      match chunkStores part d receivers idx r.1 srcs r.2 team s2 with
      | .error f => .error f
      | .ok (ws, s3) => .ok (ws.foldl (fun s e => collWrite e.1 e.2 s) s3)

/-- COLLECTIVE_CHUNK_FINAL (R302). -/
def execCollectiveChunkFinal (part job gl : Nat) (remote : List RemoteData) (order : List Nat) (s : State) :
    Host.Outcome State Fault Refusal :=
  runEvent s (fun s =>
    let p := getPart s part
    let more (c : Coll) : Bool :=
      c.running && c.code == 0 && decide (c.chunk < (collDesc c.desc).chunks (collMembers p c).length)
    match findTeam p job gl more with
    | none => none
    | some (c, team) =>
      if teamHeld s team || !((remoteRanks p c).all (fun i => remote.any (fun r => r.member == i))) then none
      else
        let others := remote.filter (fun r => (remoteRanks p c).contains r.member)
        let s0 := releaseTeam team s
        match runChunk part c team others order s0 with
        | .error (x, f) => some (suspendColl part team x f s0)
        | .ok s1 => some (mapTeam part team (fun x => { x with since := s.time, chunk := x.chunk + 1 }) s1))

/-- The status word of a collective (R303). -/
def collStatus (c : Coll) : Nat := 2 ^ 63 + c.code % 128 * 2 ^ 56 + c.chunk % 2 ^ 32

/-- The bytes of STAT at each local member; one whose STAT faults with its unit gone has none. -/
def statStores (part : Nat) : List (Nat × Coll) → State → Except (Coll × MemFault) (List (Coll × List StoreByte) × State)
  | [], s => .ok ([], s)
  | (_, c) :: team, s =>
    match atColl c (collStore part c (collDesc c.desc).stat 8 [(0, collStatus c)]) s with
    | .error f => if (unitAt s c.uid).isSome then .error (c, f) else statStores part team s
    | .ok (ws, s1) =>
      match statStores part team s1 with
      | .error f => .error f
      | .ok (rest, s2) => .ok ((c, ws) :: rest, s2)

/-- A collective of one die is over: the caches of every cluster of the job hold nothing that Shawm has passed, and its
timeline reaches its number (R243, R302). -/
def endColl (part : Nat) (s : State) (c : Coll) : State :=
  let drop (u : UnitCtx) : UnitCtx := if u.part = part ∧ jobOf s u = c.job then { u with cache := [] } else u
  let s1 := { s with u := drop s.u, units := s.units.map drop }
  mapPart s1 part (fun p =>
    let j := getJob p c.job
    { setJob p { j with gl := setGl j.gl c.die c.gl c.num } with
      colls := p.colls.filter (fun x => !(x.job == c.job && x.gl == c.gl && x.num == c.num && x.die == c.die)) })

/-- STAT is written and the timelines advance on every local member; a fault on the STAT of a unit that is there suspends the
collective (log entry 26). -/
def finishTeam (part : Nat) (team : List (Nat × Coll)) (s : State) : State :=
  let s0 := releaseTeam team s
  match statStores part team s0 with
  | .error (x, f) => suspendColl part team x f s0
  | .ok (ws, s1) => (team.map (fun e => e.2)).foldl (endColl part) (ws.foldl (fun s e => collWrite e.1 e.2 s) s1)

/-- The local collectives of a collective's group that have been issued, whoever else has. -/
def issuedTeam (p : PartState) (c : Coll) : List (Nat × Coll) :=
  let j := getJob p c.job
  (localMembers j (collMembers p c)).filterMap (fun e =>
    match headColl p c.job c.gl e.2.die with
    | some x => if x.num = c.num ∧ (collDesc x.desc).group = (collDesc c.desc).group then some (e.1, x) else none
    | none => none)

/-- What is left of a collective that has lost a member: the first of its timelines on a die, over with code 3, and the other
local members that have issued it. -/
def lostTeam (p : PartState) (job gl : Nat) : Option (List (Nat × Coll)) :=
  (p.colls.find? (fun c => c.job == job && c.gl == gl && c.running && c.code == 3 && headColl p job gl c.die == some c)).map
    (issuedTeam p)

/-- A team that ends with a code. -/
def withCode (code : Nat) (team : List (Nat × Coll)) : List (Nat × Coll) := team.map (fun e => (e.1, { e.2 with code := code }))

/-- COLLECTIVE_COMPLETE (R302): every local member has issued the collective, or it has lost a member (R303). A member that
issued it after its loss ends with the code of the others. -/
def execCollectiveComplete (part job gl : Nat) (s : State) : Host.Outcome State Fault Refusal :=
  runEvent s (fun s =>
    let p := getPart s part
    let ended (c : Coll) : Bool :=
      c.running && (c.code != 0 || c.chunk == (collDesc c.desc).chunks (collMembers p c).length)
    match findTeam p job gl ended with
    | some (c, team) => if teamHeld s team then none else some (finishTeam part (withCode c.code team) s)
    | none =>
      match lostTeam p job gl with
      | none => none
      | some team => if teamHeld s team then none else some (finishTeam part (withCode 3 team) s))

/-- The next free value (log entry 5). -/
def takeFree (s : State) : W64 × State := (Config.freeValue s.freeCtr, { s with freeCtr := s.freeCtr + 1 })

/-- A fabric event (R296). -/
def fabricEvent (part code port job : Nat) (s : State) : State :=
  journal s part 5 code job 0 (leBytes 1 port ++ leBytes 7 0 ++ leBytes 8 (lnkstatWord s job port).toNat)

/-- A fabric event of no stated port: the port is a free value (log entry 5). -/
def fabricEventAny (part code job : Nat) (s : State) : State :=
  let f := takeFree s
  fabricEvent part code (f.1.toNat % 16) job f.2

/-- Link patience, FABCFG.PATIENCE ms, has run since a collective was matched and since its last chunk (R297, R303). -/
def patienceOver (s : State) (part : Nat) (c : Coll) : Bool :=
  decide (1000000 * bitsAt (getPart s part).fabcfg.toNat 0 16 ≤ s.time - c.since)

/-- COLLECTIVE_PATIENCE_EXPIRY (R303): every member has issued it and nothing moves. -/
def execCollectivePatienceExpiry (part job gl : Nat) (s : State) : Host.Outcome State Fault Refusal :=
  runEvent s (fun s =>
    let p := getPart s part
    match findTeam p job gl (fun c => c.running && c.code == 0) with
    | none => none
    | some (c, team) =>
      if teamHeld s team || !patienceOver s part c then none
      else
        let s1 := mapTeam part team (fun x => { x with code := 1 }) (fabricEventAny part 4 job s)
        some (finishTeam part (withCode 1 team) s1))

/-- COLLECTIVE_MEMBER_LOST (R303): nothing can match the collective any more, and COLLECTIVE_COMPLETE ends it where a fault of
a STAT keeps it. -/
def execCollectiveMemberLost (part job gl : Nat) (s : State) : Host.Outcome State Fault Refusal :=
  runEvent s (fun s =>
    let p := getPart s part
    match p.colls.find? (fun c => c.job == job && c.gl == gl) with
    | none => none
    | some c =>
      let team := issuedTeam p c
      if teamHeld s team then none
      else some (finishTeam part (withCode 3 team) (mapTeam part team (fun x => { x with running := true, code := 3 }) s)))

/-! ### Packets (R286, R304) -/

/-- A packet from a rank counts as received. -/
def countPacket (part : Nat) (k : Packet) (s : State) : State :=
  mapPart s part (fun p =>
    let j := getJob p k.job
    setJob p { j with recvd := assocSet j.recvd k.src (assocGet 0 j.recvd k.src + 1) })

/-- XSEND_PACKET_ARRIVAL (R286, R306): a packet for a cancelled job is discarded and counted; another waits in the
queue. -/
def execXsendPacketArrival (part : Nat) (k : Packet) (s : State) : Host.Outcome State Fault Refusal :=
  runEvent s (fun s =>
    if !hasPart s part then none
    else if (getJob (getPart s part) k.job).canc then some (countPacket part k s)
    else some (mapPart s part (fun p => { p with packets := p.packets ++ [k] })))

/-- The queue without its packet at an index. -/
def dropPacket (part k : Nat) (s : State) : State :=
  mapPart s part (fun p => { p with packets := p.packets.take k ++ p.packets.drop (k + 1) })

/-- XSEND_LAUNCH_ACCEPT (R286, R304): the oldest packet of its job is accepted once quota and pool allow, or discarded
where its record cannot be placed or its job is cancelled; it counts as received then. -/
def execXsendLaunchAccept (part k : Nat) (s : State) : Host.Outcome State Fault Refusal :=
  runEvent s (fun s =>
    let p := getPart s part
    match p.packets[k]? with
    | none => none
    | some pkt =>
      let j := getJob p pkt.job
      if (p.packets.take k).any (fun x => x.job == pkt.job) then none
      else if j.canc then some (countPacket part pkt (dropPacket part k s))
      else if recordUnplaceable s part pkt.job pkt.bytes then
        some (fabricEventAny part 6 pkt.job (countPacket part pkt (dropPacket part k s)))
      else if !j.valid || (refusal p pkt.job).isSome then none
      else some (acceptLaunch part pkt.job pkt.bytes (.outside pkt.depth 0) (countPacket part pkt (dropPacket part k s))).2)

/-! ### Termination (R304 to R306) -/

/-- Launches outstanding in the phases below one. -/
def belowPhase (j : Job) (p : Nat) : Nat :=
  (j.phases.filter (fun c => decide (c.num < p))).foldl (fun acc c => acc + c.outstanding) 0

/-- Job-level joins wait on this device. -/
def joinsWait (p : PartState) (job : Nat) : Bool := p.hostJoins.any (fun j => j.job == job && j.ofJob && j.final.isNone)

/-- What this device reports to a round: its counts, whether a job-level join waits, and the phases asked. -/
def localCount (p : PartState) (j : Job) (asked : List Nat) : RankCount :=
  { rank := j.rank, count := j.outstanding, joins := joinsWait p j.id,
    phases := asked.map (fun p => (p, belowPhase j p)), sent := j.sent, recv := j.recvd }

/-- SENT equals RECV for every ordered pair of ranks. -/
def allReceived (ranks : List Nat) (cs : List RankCount) : Bool :=
  let get (r : Nat) : RankCount :=
    (cs.find? (fun c => c.rank == r)).getD { rank := r, count := 0, joins := false, phases := [], sent := [], recv := [] }
  ranks.all (fun a => ranks.all (fun b => assocGet 0 (get a).sent b == assocGet 0 (get b).recv a))

/-- Every device reports no launch outstanding below a phase. -/
def phaseClear (cs : List RankCount) (p : Nat) : Bool := cs.all (fun c => c.phases.contains (p, 0))

/-- The phases that a round decides: those that the devices report on, and those that launches here wait for. -/
def askedPhases (p : PartState) (job : Nat) (remote : List RankCount) : List Nat :=
  let mine := p.launches.filter (fun l => l.job == job && !l.released && unplaced l && recPhase l.record != 0)
  (mine.map (fun l => recPhase l.record) ++ remote.flatMap (fun c => c.phases.map (fun e => e.1))).eraseDups

/-- A round starts as a job-level join waits on a device whose local count is zero, or a launch waits for its phase, and again
after each round that does not conclude (R304, R305). -/
def roundDue (last : Option Round) (cs : List RankCount) : Bool :=
  cs.any (fun c => (c.joins && c.count == 0) || !c.phases.isEmpty) || last.any (fun r => !r.concluded)

/-- Two rounds find the same values, whatever phases they ask about. -/
def sameCounts (a b : List RankCount) : Bool :=
  a.map (fun c => (c.rank, c.count, c.sent, c.recv)) == b.map (fun c => (c.rank, c.count, c.sent, c.recv))

/-- A job is found complete: DONE is set, its job-level joins are over, and its graphs and phases are cancelled no longer
(R258, R283, R304). -/
def jobComplete (job : Nat) (p : PartState) : PartState :=
  let j := getJob p job
  let clear (c : Counter) : Counter := { c with canc := false }
  let p1 := setJob p { j with complete := true, graphs := j.graphs.map clear, phases := j.phases.map clear }
  { p1 with hostJoins := p1.hostJoins.map (fun h =>
      if h.job = job ∧ h.ofJob ∧ h.final = none then { h with final := some (handleWord p1 job h.handle.toNat) } else h) }

/-- The launches of a job whose phase a test opens are released (R259, R305). -/
def releasePhases (job : Nat) (test : Nat → Bool) (p : PartState) : PartState :=
  { p with launches := p.launches.map (fun l =>
      if l.job = job ∧ test (recPhase l.record) then { l with released := true } else l) }

/-- A round and the one before it find every packet received (R304). -/
def bothReceived (j : Job) (cs : List RankCount) : Bool :=
  j.lastRound.any (fun old => allReceived j.ranks cs && allReceived j.ranks old.counts)

/-- A round and the one before it find the job complete (R304). -/
def roundsEnd (j : Job) (cs : List RankCount) : Bool :=
  bothReceived j cs && j.lastRound.any (fun old => sameCounts old.counts cs) && cs.all (fun c => c.count == 0)

/-- A round and the one before it open a phase (R305). -/
def roundsOpen (j : Job) (cs : List RankCount) (n : Nat) : Bool :=
  bothReceived j cs && phaseClear cs n && j.lastRound.any (fun old => phaseClear old.counts n)

/-- A round concludes: the job is complete where a join waits for it, and every phase asked about is open. -/
def roundConcludes (j : Job) (cs : List RankCount) : Bool :=
  (roundsEnd j cs || !cs.any (fun c => c.joins)) && cs.all (fun c => c.phases.all (fun e => roundsOpen j cs e.1))

/-- The partition after a round of a job: this round and the one before it may find the job complete, or open phases. -/
def afterRound (job : Nat) (cs : List RankCount) (p : PartState) : PartState :=
  let j := getJob p job
  let p1 := setJob p { j with lastRound := some { counts := cs, concluded := roundConcludes j cs } }
  let p2 := releasePhases job (roundsOpen j cs) p1
  if roundsEnd j cs then jobComplete job p2 else p2

/-- TERMINATION_ROUND (R304, R305): the other devices of the job report, each once. -/
def execTerminationRound (part job : Nat) (remote : List RankCount) (s : State) : Host.Outcome State Fault Refusal :=
  runEvent s (fun s =>
    let p := getPart s part
    let j := getJob p job
    let others := j.ranks.filter (fun r => r != j.rank)
    if !hasPart s part || !(p.jobs.any (fun x => x.id == job)) || remote.map (fun c => c.rank) != others then none
    else
      let counts := localCount p j (askedPhases p job remote) :: remote
      if roundDue j.lastRound counts then some (setPart s part (afterRound job counts p)) else none)

/-- JOB_CANCEL_MESSAGE (R306). -/
def execJobCancelMessage (part job : Nat) (s : State) : Host.Outcome State Fault Refusal :=
  runEvent s (fun s => if hasPart s part then some (cancelJob part job s) else none)

end Sys2Proof.Machine
end

