-- ==== Sys2Proof/Machine/Ed25519.lean ====
section
/-! DEFINITION. Ed25519 with SHA-512, by which attestation reports and firmware images are signed (R321, R353), and the key
pair of the device, whose secret part nothing gives (R322; log entry 20). -/

namespace Sys2Proof.Machine

open Sys2Proof

/-! ### The field and the curve of the standard -/

/-- The prime 2^255 − 19. -/
def edPrime : Nat := 2 ^ 255 - 19

/-- The order of the base point. -/
def edOrder : Nat := 2 ^ 252 + 27742317777372353535851937790883648493

/-- A power modulo the prime, over the `n` low bits of the exponent. -/
def edPow (b e : Nat) : Nat → Nat
  | 0 => 1
  | n + 1 => let r := edPow (b * b % edPrime) (e / 2) n; if e % 2 = 1 then r * b % edPrime else r

/-- The inverse modulo the prime. -/
def edInv (x : Nat) : Nat := edPow (x % edPrime) (edPrime - 2) 255

/-- A difference modulo the prime. -/
def edSub (a b : Nat) : Nat := (a + edPrime - b % edPrime) % edPrime

/-- The constant d of the curve, −121665 / 121666. -/
def edD : Nat := edSub 0 (121665 * edInv 121666)

/-- A point in extended coordinates. -/
structure EdPoint where
  x : Nat
  y : Nat
  z : Nat
  t : Nat
  deriving DecidableEq, Repr

/-- The neutral point. -/
def EdPoint.neutral : EdPoint := { x := 0, y := 1, z := 1, t := 0 }

/-- The base point. -/
def EdPoint.base : EdPoint :=
  let x := 15112221349535400772501151409588531511454012693041857206046113283949847762202
  let y := 46316835694926478169428394003475163141307993866256225615783033603165251855960
  { x, y, z := 1, t := x * y % edPrime }

/-- The sum of two points, `d` the curve's constant. -/
def EdPoint.add (d : Nat) (p q : EdPoint) : EdPoint :=
  let a := edSub p.y p.x * edSub q.y q.x % edPrime
  let b := (p.y + p.x) * (q.y + q.x) % edPrime
  let c := p.t * (2 * d) % edPrime * q.t % edPrime
  let e := 2 * p.z * q.z % edPrime
  let f := edSub b a
  let g := edSub e c
  let h := (e + c) % edPrime
  let i := (b + a) % edPrime
  { x := f * g % edPrime, y := h * i % edPrime, z := g * h % edPrime, t := f * i % edPrime }

/-- A multiple of a point by the `n` low bits of a number. -/
def EdPoint.mul (d : Nat) (k : Nat) (p : EdPoint) : Nat → EdPoint
  | 0 => .neutral
  | n + 1 =>
    let r := EdPoint.mul d (k / 2) (p.add d p) n
    if k % 2 = 1 then r.add d p else r

/-- The 32 bytes of a point: y, with the low bit of x above it. -/
def EdPoint.bytes (p : EdPoint) : List Byte :=
  let i := edInv p.z
  leBytes 32 (p.y * i % edPrime + p.x * i % edPrime % 2 * 2 ^ 255)

/-- A multiple of the base point, as bytes. -/
def edBase (k : Nat) : List Byte := (EdPoint.mul edD k .base 256).bytes

/-! ### Keys and signatures -/

/-- The scalar and the seed of nonces that a secret gives. -/
def edSecret (secret : List Byte) : Nat × List Byte :=
  let h := sha512 secret
  let a := leValue (h.take 32)
  (a % 2 ^ 254 / 8 * 8 + 2 ^ 254, h.drop 32)

/-- The public key of a secret. -/
def edPublic (secret : List Byte) : List Byte := edBase (edSecret secret).1

/-- The signature of a message under a secret. -/
def edSign (secret message : List Byte) : List Byte :=
  let s := edSecret secret
  let r := leValue (sha512 (s.2 ++ message)) % edOrder
  let rb := edBase r
  let k := leValue (sha512 (rb ++ edPublic secret ++ message)) % edOrder
  rb ++ leBytes 32 ((r + k * s.1) % edOrder)

/-- A square root of a quotient modulo the prime. -/
def edSqrt (u v : Nat) : Option Nat :=
  let v3 := v * v % edPrime * v % edPrime
  let v7 := v3 * v3 % edPrime * v % edPrime
  let x := u * v3 % edPrime * edPow (u * v7 % edPrime) ((edPrime - 5) / 8) 252 % edPrime
  let w := v * x % edPrime * x % edPrime
  if w = u then some x
  else if w = edSub 0 u then some (x * edPow 2 ((edPrime - 1) / 4) 253 % edPrime) else none

/-- The point that 32 bytes stand for. -/
def EdPoint.ofBytes (bs : List Byte) : Option EdPoint :=
  let n := leValue bs
  let y := n % 2 ^ 255
  let odd := n / 2 ^ 255
  if bs.length ≠ 32 ∨ edPrime ≤ y then none
  else
    match edSqrt (edSub (y * y % edPrime) 1) ((edD * (y * y % edPrime) + 1) % edPrime) with
    | none => none
    | some r =>
      let x := if r % 2 = odd then r else edSub 0 r
      if x % 2 = odd then some { x, y, z := 1, t := x * y % edPrime } else none

/-- Two points are one. -/
def EdPoint.same (p q : EdPoint) : Bool :=
  p.x * q.z % edPrime == q.x * p.z % edPrime && p.y * q.z % edPrime == q.y * p.z % edPrime

/-- A signature of a message verifies under a public key. -/
def edVerify (pub message sig : List Byte) : Bool :=
  match EdPoint.ofBytes (sig.take 32), EdPoint.ofBytes pub with
  | some r, some a =>
    let s := leValue (sig.drop 32)
    let k := leValue (sha512 (sig.take 32 ++ pub ++ message)) % edOrder
    let eight (p : EdPoint) : EdPoint := EdPoint.mul edD 8 p 4
    sig.length == 64 && decide (s < edOrder)
      && (eight (EdPoint.mul edD s .base 256)).same (eight (r.add edD (EdPoint.mul edD k a 256)))
  | _, _ => false

/-- The secret part of the identity key, as the fuses hold it (R3, R322). -/
def fuseSecret : List Byte := (List.range 32).map Config.identitySecret

/-- IDKEY (R321). -/
def identityKey : List Byte := edPublic fuseSecret

end Sys2Proof.Machine
end

