-- ==== Sys2Proof/Machine/Flash.lean ====
section
/-! DEFINITION. What outlives the power (R3): the signatures of the firmware images in flash, and the tags of its other records.
What the signatures and tags cover is a choice (log entry 3). -/

namespace Sys2Proof.Machine

open Sys2Proof

/-! ### Firmware images (R3, R353) -/

/-- What the signature of an image covers. -/
def FwImage.bytes (i : FwImage) : List Byte := i.app ++ i.comp ++ i.compSig ++ i.ran

/-- The image's Ed25519 signature, computed over its SHA-512, verifies under the public key of the fuses. -/
def FwImage.verifies (key : List Byte) (i : FwImage) : Bool := edVerify key (sha512 i.bytes) i.sig

/-- The signature of the compute dies' firmware verifies. -/
def FwImage.compVerifies (key : List Byte) (i : FwImage) : Bool := edVerify key (sha512 i.comp) i.compSig

/-! ### Records and their tags (R3) -/

/-- The tag of a record: its kind and its bytes under the key derived from the fuse secret. -/
def recordTag (kind : Nat) (bytes : List Byte) : List Byte := hmac512 (Config.flashKey fuseSecret) (leBytes 1 kind ++ bytes)

/-- The tags that the records of flash should carry. -/
def Flash.due (f : Flash) : FlashTags :=
  { health := recordTag 0 (leBytes 1 (if f.repl then 1 else 0))
    lanes := recordTag 1 (f.lanes.flatMap (fun l => leBytes 2 l.1 ++ leBytes 1 l.2))
    frames := recordTag 2 (f.frames.flatMap (leBytes 6))
    config := recordTag 3 (leBytes 1 f.config) }

/-- The firmware writes the records, each with its tag. -/
def Flash.sealed (f : Flash) : Flash := { f with tags := f.due }

end Sys2Proof.Machine
end

