-- ==== Sys2Proof/Machine/Attest.lean ====
section
/-! DEFINITION. Attestation reports (R321, R322). -/

namespace Sys2Proof.Machine

open Sys2Proof

/-- The first 344 bytes of a report (R321). DESIGN CHOICE: MDICT is present where the report names a job whose digest list
can be read, one of COUNT 0 and one of a job with MREQ 0 too, and absent where the list cannot be read (log entry 20). -/
def reportBody (part job : Nat) (nonce : List Byte) (s : State) : List Byte :=
  let digests := if job = 0xFFFF then none else digestList part (getJob (getPart s part) job) s
  let flags := if digests.isSome then 1 else 0
  let mdict := match digests with
    | some ds => sha512 ds.flatten
    | none => List.replicate 64 0
  leBytes 4 1 ++ leBytes 4 flags ++ leBytes 8 (s.attSeq + 1) ++ leBytes 4 (partcfg s part) ++ leBytes 2 job ++ leBytes 2 0
    ++ (nonce ++ List.replicate 32 0).take 32 ++ identityKey
    ++ (s.mapp ++ List.replicate 64 0).take 64 ++ (s.mcomp ++ List.replicate 64 0).take 64
    ++ (s.mran ++ List.replicate 64 0).take 64 ++ mdict

/-- A report: 408 bytes, signed with the identity key. -/
def report (part job : Nat) (nonce : List Byte) (s : State) : List Byte :=
  reportBody part job nonce s ++ edSign fuseSecret (reportBody part job nonce s)

/-- A report is issued and counted. -/
def issueReport (part job : Nat) (nonce : List Byte) (s : State) : State :=
  { s with attSeq := s.attSeq + 1, reports := s.reports ++ [report part job nonce s] }

/-- The report of a link session, for the endpoint's X25519 public value (R293, R321). -/
def sessionReport (part : Nat) (pub : List Byte) (s : State) : State := issueReport part 0xFFFF ((sha512 pub).take 32) s

/-- ATTESTATION_REPORT (R321). -/
def execAttestationReport (part job : Nat) (nonce : List Byte) (s : State) : Host.Outcome State Fault Refusal :=
  runEvent s (fun s => if hasPart s part then some (issueReport part job nonce s) else none)

end Sys2Proof.Machine
end

