-- ==== Sys2Proof/Machine/Links.lean ====
section
/-! DEFINITION. Isapel ports: states, retry windows, keys and failures (R292 to R297), and lines that enter and leave the
package (R344). -/

namespace Sys2Proof.Machine

open Sys2Proof

/-! ### Port states (R295) -/

/-- Replace a port. -/
def setPort (n : Nat) (p : Port) (s : State) : State := if h : n < 16 then { s with ports := s.ports.set n p h } else s

/-- An event of a port. -/
def portEvent (n : Nat) (s : State) (body : Port → Option (State → State)) : Host.Outcome State Fault Refusal :=
  runEvent s (fun s => if n < 16 then (body (getPort s n)).map (fun f => f s) else none)

/-- A port changes with a fabric event in its partition's journal. -/
def portChange (n code : Nat) (p : Port) (s : State) : State :=
  fabricEvent p.part code n 0xFFFF (setPort n p s)

/-- A port carries flits: up or retrying. -/
def Port.live (p : Port) : Bool := p.state == 3 || p.state == 4

/-- Flits that the retry window holds (R292). -/
def windowSize (s : State) (n : Nat) : Nat := if longHaul s n then 2097152 else 16384

/-- Flits that one session key covers (R293). -/
def keyFlits : Nat := 2 ^ 32

/-- PORT_ENABLE (R295). An enable after a retraining that did not reach up counts as a further retraining (R343; log entry
28). DESIGN CHOICE: TIER stays 0 in training and attesting, until the agreement of a key brings it (R294; log entry 28). -/
def execPortEnable (n : Nat) (s : State) : Host.Outcome State Fault Refusal :=
  portEvent n s (fun p =>
    if p.state = 0 then
      some (setPort n { p with state := 1, retrains := if p.retrains = 0 then 0 else p.retrains + 1 })
    else none)

/-- LANES_TRAINED (R295). -/
def execLanesTrained (n : Nat) (s : State) : Host.Outcome State Fault Refusal :=
  portEvent n s (fun p => if p.state = 1 then some (setPort n { p with state := 2 }) else none)

/-- A flit is sent once more. -/
def SentFlit.again (w : SentFlit) : SentFlit := { w with sends := w.sends + 1 }

/-- A new session key (R293): the key epoch counts, and the flits of the retry window are sent again under the key. -/
def Port.rekeyed (p : Port) : Port :=
  let n := p.window.length
  let q := { p with keyep := (p.keyep + 1) % 256, keyed := n, tagFails := 0 }
  if n = 0 then q
  else { q with state := 4, retries := min (p.retries + n) 0xFFFF, window := p.window.map SentFlit.again }

/-- KEY_AGREED (R293, R295) with a peer device: the endpoint has presented its report; the port is up, with RETRIES and the
sendings of each flit counting from here. -/
def execKeyAgreed (x : Session) (peer tier rtt : Nat) (s : State) : Host.Outcome State Fault Refusal :=
  portEvent x.port s (fun p =>
    if p.state = 2 ∧ 1 ≤ tier ∧ tier ≤ 3 then
      let q := { p with peer := some peer, tier, rtt, retries := 0, retrains := 0,
                        window := p.window.map (fun (w : SentFlit) => { w with sends := 0 }) }
      let up := { q with state := 3, keyep := (p.keyep + 1) % 256 }
      some (fun s =>
        setPort x.port { q with state := 3 }.rekeyed (portChange x.port 3 up (sessionReport p.part x.pub s)))
    else none)

/-- A package that has failed to bring a port up after three retrainings asks for replacement (R343). -/
def askReplacement (n : Nat) (s : State) : State := if 3 ≤ n then { s with flash := Flash.sealed { s.flash with repl := true } } else s

/-- PEER_ATTESTATION_FAILURE (R293, R295). -/
def execPeerAttestationFailure (x : Session) (s : State) : Host.Outcome State Fault Refusal :=
  portEvent x.port s (fun p =>
    if p.state = 2 then
      some (fun s => portChange x.port 5 { p with state := 0, tier := 0 }
        (askReplacement p.retrains (sessionReport p.part x.pub s)))
    else none)

/-- A port for the unacknowledged flits of a failed one: up, of the same tier, to the same peer device (R295). -/
def failoverPort (s : State) (n : Nat) : Option Nat :=
  let p := getPort s n
  (List.range 16).find? (fun m =>
    let q := getPort s m
    m != n && q.state == 3 && q.tier == p.tier && p.peer.isSome && q.peer == p.peer && q.part == p.part)

/-- The lowest die of a partition. -/
def lowestDie (s : State) (part : Nat) : Nat := (diesOf s.config part).headD 0

/-- The 512 MiB of its partition's DRAM that a long-haul port's retry buffer takes (R292; log entry 28). -/
def retryBase (s : State) (n : Nat) : Nat :=
  let part := (getPort s n).part
  lowestDie s part * 2 ^ 44 + Config.retryArea part % 6 * 2 ^ 33 + n * 2 ^ 29

/-- The first place of a retry buffer that no flit of the window holds. -/
def freeSlot (ws : List SentFlit) : Nat :=
  ((List.range (ws.length + 1)).find? (fun k => ws.all (fun w => w.slot != k))).getD ws.length

/-- A flit enters a port's retry buffer, and is sent under the port's key; that of a long-haul port lies in DRAM (R292). -/
def enterWindow (n : Nat) (s : State) (f : Flit) : State :=
  let p := getPort s n
  let put (slot : Nat) : State → State :=
    setPort n { p with window := p.window ++ [{ flit := f, sends := 1, slot }], keyed := p.keyed + 1 }
  if longHaul s n then
    let k := freeSlot p.window
    put k (deviceWrite (retryBase s n + 256 * k) f.bytes s)
  else put 0 s

/-- A flit takes the next sequence number of a port. -/
def sendFlit (n : Nat) (f : Flit) (s : State) : State :=
  let p := getPort s n
  enterWindow n (setPort n { p with txSeq := p.txSeq + 1 } s) { f with seq := p.txSeq, via := none }

/-- Flits that a port can take: its retry window has room for them, and its session key covers them (R292, R293). -/
def windowRoom (s : State) (n : Nat) : Nat :=
  let p := getPort s n
  min (windowSize s n - p.window.length) (keyFlits - p.keyed)

/-- A port fails: event 1, and its flits move as far as the other port's window has room, under the numbers that they have;
the others wait (R295; log entry 28). -/
def failPort (n : Nat) (s : State) : State :=
  let p := getPort s n
  let s1 := portChange n 1 { p with state := 5 } s
  match failoverPort s1 n with
  | none => s1
  | some m =>
    let k := windowRoom s1 m
    ((p.window.take k).map (fun w => { w.flit with via := some (w.flit.via.getD n) })).foldl (enterWindow m)
      (setPort n { p with state := 5, window := p.window.drop k } s1)

/-- The port whose numbers a flit continues: the one that it was moved from, or the one that it arrives at. -/
def flitPort (n : Nat) (f : Flit) : Nat := f.via.getD n

/-- A flit of 256 bytes is delivered at a port where it is the next of its sequence (R292). -/
def deliverFlit (n : Nat) (f : Flit) (s : State) : State :=
  let k := flitPort n f
  let s1 := setPort n { getPort s n with tagFails := 0 } s
  if k < 16 ∧ f.seq = (getPort s1 k).rxSeq then
    let s2 := setPort k { getPort s1 k with rxSeq := (getPort s1 k).rxSeq + 1 } s1
    setPort n { getPort s2 n with received := (getPort s2 n).received ++ [f] } s2
  else s1

/-- FLIT_RECEIVE (R292, R293): one whose tag fails is lost, and three in a row fail the port. -/
def execFlitReceive (n : Nat) (f : Flit) (s : State) : Host.Outcome State Fault Refusal :=
  portEvent n s (fun p =>
    if !p.live || f.bytes.length != 256 then none
    else if !f.tagOk then
      let q := { p with tagFails := p.tagFails + 1 }
      some (fun s => if 3 ≤ q.tagFails then failPort n (setPort n q s) else setPort n q s)
    else some (deliverFlit n f))

/-- A flit may be sent once more: not 16 times yet (R295). -/
def SentFlit.resendable (w : SentFlit) : Bool := decide (w.sends < 16)

/-- A flit is the one that a port names by the port whose numbers it has and its number. -/
def SentFlit.isAt (n : Nat) (name : Nat × Nat) (w : SentFlit) : Bool := (flitPort n w.flit, w.flit.seq) == name

/-- FLIT_RESEND (R292, R295): a flit of the window is sent again under the port's key, its sixteenth sending the last. -/
def execFlitResend (f : FlitName) (s : State) : Host.Outcome State Fault Refusal :=
  portEvent f.port s (fun p =>
    let named := SentFlit.isAt f.port (f.via, f.seq)
    if p.live && p.window.any (fun w => named w && w.resendable) && decide (p.keyed < keyFlits) then
      some (setPort f.port { p with state := 4, retries := min (p.retries + 1) 0xFFFF, keyed := p.keyed + 1,
                                    window := p.window.map (fun w => if named w then w.again else w) })
    else none)

/-- RETRY_WINDOW_ACKNOWLEDGED (R292, R295): the flits that the peer names leave the window. With the last of them a retrying
port enters up again, and RETRIES counts from there (R294; log entry 28). -/
def execRetryWindowAcknowledged (a : FlitAck) (s : State) : Host.Outcome State Fault Refusal :=
  portEvent a.port s (fun p =>
    if p.live then
      let left := p.window.filter (fun w => !a.flits.any (fun k => w.isAt a.port k))
      some (setPort a.port (if left.isEmpty ∧ p.state = 4 then { p with state := 3, window := left, retries := 0 }
                            else { p with window := left }))
    else none)

/-- KEY_REAGREEMENT (R293): after 2^32 flits under one key; what the window holds is sent again, where R295 lets it be. -/
def execKeyReagreement (x : Session) (s : State) : Host.Outcome State Fault Refusal :=
  portEvent x.port s (fun p =>
    if p.live && decide (keyFlits ≤ p.keyed) && p.window.all SentFlit.resendable then
      some (fun s => setPort x.port p.rekeyed (sessionReport p.part x.pub s))
    else none)

/-- PERSISTENT_LANE_FAILURE (R295). -/
def execPersistentLaneFailure (n : Nat) (s : State) : Host.Outcome State Fault Refusal :=
  portEvent n s (fun p => if p.live then some (portChange n 2 { p with half := true }) else none)

/-- LINK_FAILURE (R295): one flit has been sent 16 times and not been acknowledged, or three tags have failed. -/
def execLinkFailure (n : Nat) (s : State) : Host.Outcome State Fault Refusal :=
  portEvent n s (fun p =>
    if p.live && (p.window.any (fun w => decide (16 ≤ w.sends)) || decide (3 ≤ p.tagFails)) then some (failPort n) else none)

/-- PORT_RETRAIN (R295). DESIGN CHOICE: a port at half width stays so, in training and up (R294; log entry 28). -/
def execPortRetrain (n : Nat) (s : State) : Host.Outcome State Fault Refusal :=
  portEvent n s (fun p =>
    if p.state = 5 then
      some (setPort n { p with state := 1, retrains := p.retrains + 1, tagFails := 0 })
    else none)

/-! ### Lines at the ports (R317, R344, R355)

Ports 0 to 15 are the Isapel ports, 16 to 19 the root ports, and 20 the endpoint port, which reaches no memory. -/

/-- An address in the DRAM of a compute die. -/
def isDramAddr (pa : Nat) : Bool := decide (pa / 2 ^ 44 < 4) && decide (pa % 2 ^ 44 < 48 * 2 ^ 30)

/-- The partition that owns a physical address. -/
def partOfAddr (s : State) (pa : Nat) : Nat := partOfDie s.config (pa / 2 ^ 44)

/-- A byte that a port may reach: for a live Isapel port one of its own partition's DRAM, and for a root port one on a page
that Ranistam has mapped for it. -/
def portReaches (s : State) (port pa : Nat) : Bool :=
  isDramAddr pa &&
    (if port < 16 then (getPort s port).live && (getPort s port).part == partOfAddr s pa
     else decide (port < 20) && s.ioMap.contains (port - 16, pa / 65536))

/-- INGRESS_WRITE (R344): the data take their guards at the port and enter storage. -/
def execIngressWrite (dest : Inbound) (bytes : List Byte) (s : State) : Host.Outcome State Fault Refusal :=
  runEvent s (fun s =>
    if !bytes.isEmpty && (List.range bytes.length).all (fun i => portReaches s dest.port (dest.pa + i)) then
      some (deviceWrite dest.pa bytes s)
    else none)

/-- Bytes that nothing fixes, eight from each free value (log entry 5). -/
def freeBytes (n : Nat) (s : State) : List Byte × State :=
  ((List.range n).flatMap (fun i => leBytes 8 (Config.freeValue (s.freeCtr + i)).toNat), { s with freeCtr := s.freeCtr + n })

/-- EGRESS_LINE (R344): a line that fails its guard, or is poisoned, leaves marked poisoned, and the journal says so. An
Isapel port sends it in a flit of 256 bytes (R292), of which the spec does not give the rest (log entry 28). -/
def execEgressLine (port pa : Nat) (s : State) : Host.Outcome State Fault Refusal :=
  runEvent s (fun s =>
    let line := pa / 64
    if !portReaches s port pa then none
    else if decide (port < 16) && windowRoom s port == 0 then none
    else
      let bad := (lineError s pa).isSome
      let s1 :=
        if bad then journal s (partOfAddr s pa) 8 3 0xFFFF 0 (leBytes 8 (64 * line)) else s
      if port < 16 then
        let pad := freeBytes 24 s1
        let f : Flit := { seq := 0, via := none, tagOk := true, poisoned := bad, bytes := Memory.readN s.mem (64 * line) 64 ++ pad.1 }
        some (sendFlit port f pad.2)
      else some s1)

end Sys2Proof.Machine
end

