-- ==== Sys2Proof/Machine/Package.lean ====
section
/-! DEFINITION. The package: storage errors and retirement (R341 to R343), partition changes (R319), attestation (R321),
power and bring-up (R349, R353), and the thermal limits (R350, R352). -/

namespace Sys2Proof.Machine

open Sys2Proof

/-! ### Storage errors (R341 to R343) -/

/-- A die changed. -/
def mapDie (n : Nat) (f : DieState → DieState) (s : State) : State :=
  if h : n < 4 then { s with dies := s.dies.set n (f s.dies[n]) h } else s

/-- HEALTH.CORR counts one more error of a die, and saturates (R343). -/
def countCorr (die : Nat) (s : State) : State := mapDie die (fun d => { d with corr := min (d.corr + 1) 0xFFFFFFFF }) s

/-- A die has so many retired lanes or frames that the package asks for replacement (R343). -/
def worn (f : Flash) : Bool :=
  (List.range 4).any (fun d =>
    decide (16 ≤ (f.lanes.filter (fun l => l.1 / 128 == d)).length)
    || decide (4096 ≤ (f.frames.filter (fun n => n / 2 ^ 28 == d)).length))

/-- Flash takes a change, with its tags; REPL, once set, stays. -/
def setFlash (f : Flash) (s : State) : State := { s with flash := Flash.sealed { f with repl := f.repl || worn f } }

/-- Contexts on a core whose registers use the core's spare slice: those that have not taken their last retirement at a
`setvl`, and a DET context, which keeps its logical lanes, once a lane of its share is retired. -/
def usesSpare (s : State) (core : Nat) (u : UnitCtx) : Bool :=
  u.cluster.isSome && u.threads.any (fun t =>
    match focus { uid := u.uid, slot := t.slot } s with
    | some s1 => t.live && decide (t.slot < 8) && myCore s1 == core
        && decide (lanesInService s1 t.own < if isDet s1 then t.own else t.lanes)
    | none => false)

/-- A lane slice is retired: flash keeps it, the journal says so, and contexts that still use the core's spare are
switched out, saving (R341). -/
def retireLane (part core lane : Nat) (s : State) : State :=
  if s.flash.lanes.contains (core, lane) then s
  else
    let held := ((allUnits s).filter (usesSpare s core)).map (fun u => u.uid)
    let s1 := setFlash { s.flash with lanes := s.flash.lanes ++ [(core, lane)] } s
    let s2 := journal s1 part 8 1 0xFFFF 0 (leBytes 2 core ++ leBytes 1 lane)
    held.foldl (switchOut false) s2

/-- A corrected error of a register slice: the sixteenth within 2^30 cycles retires the slice (R341). -/
def sliceError (core lane : Nat) (s : State) : State :=
  let mine := (s.laneErrors.filter (fun e => e.1 == (core, lane) && decide (e.2 ≤ 10 * 2 ^ 30))) ++ [((core, lane), 0)]
  let others := s.laneErrors.filter (fun e => e.1 != (core, lane))
  let s1 := { s with laneErrors := others ++ mine }
  if 16 ≤ mine.length then retireLane (partOfDie s.config (core / 128)) core lane s1 else s1

/-- SRAM_CORRECTED_ERROR (R341): of any SRAM of a die, which is counted, and of a register slice where a lane of the core is
named. -/
def execSramCorrectedError (die core : Nat) (lane : Option Nat) (s : State) : Host.Outcome State Fault Refusal :=
  runEvent s (fun s =>
    if 4 ≤ die then none
    else
      match lane with
      | none => some (countCorr die s)
      | some lane =>
        if core / 128 = die ∧ lane < 64 then some (sliceError core lane (countCorr die s)) else none)

/-- Bits that nothing fixes, made of free values (log entry 5). -/
def freeBits (n : Nat) (s : State) : Nat × State :=
  let words := ceilDiv n 64
  ((List.range words).foldl (fun acc i => acc + (Config.freeValue (s.freeCtr + i)).toNat * 2 ^ (64 * i)) 0 % 2 ^ n,
   { s with freeCtr := s.freeCtr + words })

/-- Registers whose contents are lost, each with its length in bits. -/
def loseRegs : List Nat → State → List Nat × State
  | [], s => ([], s)
  | n :: ns, s =>
    let a := freeBits n s
    let b := loseRegs ns a.2
    (a.1 :: b.1, b.2)

/-- Function registers with coefficients from a list of lost ones, in order. -/
def loseFn : List FnReg → List Nat → List FnReg
  | [], _ => []
  | r :: rs, xs => { r with coefs := xs.take r.coefs.length } :: loseFn rs (xs.drop r.coefs.length)

/-- The thread's registers are lost: scalar, vector, predicate and function registers, vfill and seed hold free values, in
the registers and in the checkpoint alike (R341). -/
def loseState (s : State) : State :=
  let a := s.t.arch
  let fnBits := a.fn.toList.flatMap (fun r => r.coefs.map (fun _ => if r.f64 then 64 else 32))
  let v := loseRegs (a.v.map (fun _ => regbits s)) s
  let p := loseRegs (List.replicate 96 (vlmax s)) v.2
  let x := loseRegs (List.replicate 66 64) p.2
  let fn := loseRegs fnBits x.2
  let word (i : Nat) : W64 := BitVec.ofNat 64 (x.1.getD i 0)
  let fns := loseFn a.fn.toList fn.1
  let b : Arch := { a with
    x := Vector.ofFn (fun (i : Fin 64) => word i.val)
    v := v.1
    p := Vector.ofFn (fun (i : Fin 96) => p.1.getD i.val 0)
    fn := Vector.ofFn (fun (i : Fin 16) => fns.getD i.val .empty)
    vfill := word 64, seed := word 65 }
  { fn.2 with t := { fn.2.t with arch := b, ckpt := { b with pc := s.t.ckpt.pc, vp := s.t.ckpt.vp } } }

/-- The running thread's registers lie in a lane of a core. -/
def holdsLane (core lane : Nat) (s : State) : Bool :=
  s.t.live && decide (s.t.slot < 8) && s.u.cluster.isSome && !s.t.away && s.t.wait != .start && myCore s == core
  && inShare s s.t.own lane

/-- The thread whose registers lie in a lane of a core. -/
def laneHolder (core lane : Nat) (s : State) : Option Tid :=
  ((allUnits s).flatMap (fun u => u.threads.map (fun t => ({ uid := u.uid, slot := t.slot } : Tid)))).find? (fun i =>
    match focus i s with
    | some s1 => holdsLane core lane s1
    | none => false)

/-- An uncorrectable error in a lane of the current thread's share: the strip rolls back and restores the slice from its
shadow, or, with the shadow unusable too, the thread's state is lost; the slice is retired (R341). -/
def loseSlice (core lane : Nat) (shadowOk : Bool) (s : State) : State :=
  let pc := s.t.arch.pc
  let base : Nat := if shadowOk then 0xFFFFFFFFFFFFFF00 else 0xFFFFFFFFFFFFFE00
  let s1 := takeTrap s .R { code := 0x15, sub := 0, tval := BitVec.ofNat 64 (base + lane), telem := lane } pc pc
  retireLane s.u.part core lane (if shadowOk then s1 else loseState s1)

/-- SRAM_UNCORRECTABLE_ERROR (R341): of a lane of a core. The thread whose share holds the lane takes the trap; in no
thread's share the slice is retired, and nothing else. -/
def execSramUncorrectableError (core lane : Nat) (shadowOk : Bool) (s : State) : Host.Outcome State Fault Refusal :=
  runEvent s (fun s =>
    if decide (512 ≤ core) || decide (64 ≤ lane) then none
    else
      match laneHolder core lane s with
      | none => some (retireLane (partOfDie s.config (core / 128)) core lane s)
      | some i => some (onThread i (loseSlice core lane shadowOk) s))

/-- A 64 KiB frame of DRAM is retired (R342). -/
def retireFrame (pa : Nat) (s : State) : State :=
  let frame := pa / 65536
  if s.flash.frames.contains frame then s
  else
    journal (setFlash { s.flash with frames := s.flash.frames ++ [frame] } s) (partOfAddr s pa) 8 2 0xFFFF 0
      (leBytes 8 (65536 * frame))

/-- DRAM_CORRECTED_ERROR (R342): the eighth in a frame since power-on retires it. -/
def execDramCorrectedError (pa : Nat) (s : State) : Host.Outcome State Fault Refusal :=
  runEvent s (fun s =>
    if !isDramAddr pa then none
    else
      let frame := pa / 65536
      let n := assocGet 0 s.frameErrors frame + 1
      let s1 := countCorr (pa / 2 ^ 44) { s with frameErrors := assocSet s.frameErrors frame n }
      some (if 8 ≤ n then retireFrame pa s1 else s1))

/-- DRAM_UNCORRECTABLE_ERROR (R342): the line is poisoned, and its frame is retired. -/
def execDramUncorrectableError (pa : Nat) (s : State) : Host.Outcome State Fault Refusal :=
  runEvent s (fun s =>
    if !isDramAddr pa then none
    else
      let line := pa / 64
      let s1 := if s.poison.contains line then s else { s with poison := line :: s.poison }
      some (retireFrame pa s1))

/-! ### Partition changes (R317 to R319) -/

/-- The dies that change partition, a partition being its number, its lowest die (R317). -/
def movingDies (old new : Nat) : List Nat := (List.range 4).filter (fun d => partOfDie old d != partOfDie new d)

/-- The partitions of a configuration. -/
def partsOf (config : Nat) : List Nat := (List.range 4).filter (fun n => !(diesOf config n).isEmpty)

/-- The partitions that a change makes smaller or larger, or makes, or ends. -/
def changedParts (old new : Nat) : List Nat :=
  ((movingDies old new).map (partOfDie old) ++ (movingDies old new).map (partOfDie new)).eraseDups

/-- A partition that a change makes or ends: its registers at their reset values, with its journal kept and the clock of the
partition that its dies come from (log entry 29). -/
def newPart (from_ p : PartState) : PartState :=
  { PartState.reset with jrnBase := p.jrnBase, jrnHead := p.jrnHead, clk := from_.clk, clkAt := from_.clkAt, thr := from_.thr }

/-- The translation caches of dies: of their clusters and of their engines (R314). -/
def TlbEntry.onDies (dies : List Nat) (e : TlbEntry) : Bool :=
  decide (e.agent < 192) && dies.contains (if e.agent < 128 then e.agent / 32 else e.agent - 128)

/-- A partition under a new configuration: one that was there before goes on, with no translation that a moving die holds. -/
def changedPart (s : State) (new n : Nat) : PartState :=
  let p := getPart s n
  let dies := movingDies s.config new
  if (partsOf s.config).contains n && (partsOf new).contains n then
    { p with tlb := p.tlb.filter (fun e => !e.onDies dies) }
  else if dies.contains n then newPart (getPart s (partOfDie s.config n)) p
  else p

/-- A port that moves loses its session and its retry buffer; one that keeps its partition goes on. -/
def movePort (home : Nat) (p : Port) : Port := if home = p.part then p else { Port.down with part := home }

/-- The partitions that ports are given in a change: ports of the partitions that change go to one of those that is there
after it, and the other ports keep theirs. -/
def portsFit (s : State) (ports : List Nat) (new : Nat) : Bool :=
  let changed := changedParts s.config new
  ports.length == 16 && (List.range 16).all (fun n =>
    let old := (getPort s n).part
    let home := ports.getD n 0
    if changed.contains old then changed.contains home && (partsOf new).contains home else home == old)

/-- Zero a range of DRAM. -/
def zeroDram (lo hi : Nat) (s : State) : State :=
  { s with mem := Memory.zeroRange s.mem lo hi,
           poison := s.poison.filter (fun l => decide (l < lo / 64) || decide (hi / 64 ≤ l)),
           guards := s.guards.filter (fun g => decide (g.1 < lo / 64) || decide (hi / 64 ≤ g.1)) }

/-- Zero what a die holds. -/
def zeroDie (s : State) (d : Nat) : State := zeroDram (d * 2 ^ 44) ((d + 1) * 2 ^ 44) s

/-- Zero the retry buffer of a long-haul port that moves. -/
def zeroRetry (ports : List Nat) (s : State) (n : Nat) : State :=
  if longHaul s n && ports.getD n 0 != (getPort s n).part then zeroDram (retryBase s n) (retryBase s n + 2 ^ 29) s else s

/-- What a change zeroes: the moving dies, and the retry buffers of the moving long-haul ports (R319). -/
def zeroMoved (d : Division) (s : State) : State :=
  (List.range 16).foldl (zeroRetry d.ports) ((movingDies s.config d.config).foldl zeroDie s)

/-- PARTITION_CHANGE (R319): the new configuration, and the partition that each Isapel port is given. The pages mapped for
devices on the dies that move are mapped no longer. -/
def execPartitionChange (d : Division) (s : State) : Host.Outcome State Fault Refusal :=
  runEvent s (fun s =>
    let config := d.config
    let dies := movingDies s.config config
    let resident (u : UnitCtx) : Bool := match u.cluster with | some c => dies.contains (c / 32) | none => false
    if 4 < config ∨ dies.isEmpty ∨ !portsFit s d.ports config then none
    else if (allUnits s).any resident || dies.any (fun n => !(getPart s (partOfDie s.config n)).launches.isEmpty) then none
    else
      let before (n : Nat) : Nat := partcfg s (partOfDie s.config n)
      let z := zeroMoved d s
      let s1 := { z with
        ports := Vector.ofFn (fun (i : Fin 16) => movePort (d.ports.getD i.val 0) s.ports[i])
        ioMap := s.ioMap.filter (fun e => !dies.contains (e.2 / 2 ^ 28))
        parts := Vector.ofFn (fun (i : Fin 4) => changedPart s config i.val)
        config, flash := Flash.sealed { s.flash with config } }
      some (((changedParts s.config config).filter ((partsOf config).contains ·)).foldl (fun t n =>
        journal t n 3 config 0xFFFF 0 (leBytes 8 (before n) ++ leBytes 8 (partcfg t n))) s1))

/-! ### Power and bring-up (R349, R353, R354) -/

/-- What survives without power: flash and the fuses (R3). The counter of free values, the agenda and the model's unit numbers
go on. -/
def powerLost (s : State) : State :=
  { State.reset with powered := false, flash := s.flash, fuseKey := s.fuseKey, freeCtr := s.freeCtr, agenda := s.agenda, nextUid := s.nextUid }

/-- The firmware that boots: flash image A or B (R353). -/
def bootImage (s : State) : FwImage := if s.image = 0 then s.flash.imageA else s.flash.imageB

/-- What flash gives at stage 4 (R3, R353): a record whose tag fails counts as empty; then every lane and frame is tested
afresh and REPL is set. -/
def bootFlash (b : BootInput) (f : Flash) : Flash :=
  let due := f.due
  let bad := !(f.tags == due)
  let g : Flash := { f with
    config := if f.tags.config = due.config then f.config else 0
    repl := f.repl || bad
    lanes := ((if f.tags.lanes = due.lanes then f.lanes else []) ++ (if bad then b.badLanes else [])).eraseDups
    frames := ((if f.tags.frames = due.frames then f.frames else []) ++ (if bad then b.badFrames else [])).eraseDups }
  Flash.sealed { g with repl := g.repl || worn g }

/-- The package halts at its stage with every compute die in reset. -/
def haltBoot (s : State) : State := { s with bootFail := true }

/-- The next stage begins and writes its number (R353). -/
def nextStage (s : State) : State := { s with stage := s.stage + 1 }

/-- The partitions at stage 5: registers at their reset values, journals placed, ports given out (R353). -/
def placeParts (b : BootInput) (s : State) : State :=
  let c := s.flash.config
  { s with
    config := c, capptr := 0x040
    parts := Vector.ofFn (fun (i : Fin 4) => { PartState.reset with jrnBase := b.jrnBase.getD i.val 0 % 2 ^ 30 })
    ports := Vector.ofFn (fun (i : Fin 16) => { Port.down with part := partOfDie c (b.ports.getD i.val 0) }) }

/-- Bring-up does the work of the stage that it is in (R353). -/
def bootStage (s : State) : State :=
  match s.boot with
  | none => s
  | some b =>
    match s.stage with
    | 1 =>
      if s.flash.imageA.verifies s.fuseKey then nextStage { s with image := 0 }
      else if s.flash.imageB.verifies s.fuseKey then nextStage { s with image := 1 }
      else haltBoot s
    | 2 => if b.appFwOk then nextStage { s with mapp := sha512 (bootImage s).app } else haltBoot s
    | 3 =>
      if b.diesOk && (bootImage s).compVerifies s.fuseKey then nextStage { s with mcomp := sha512 (bootImage s).comp }
      else haltBoot s
    | 4 => if b.dramOk then nextStage { s with flash := bootFlash b s.flash } else haltBoot s
    | 5 => if b.placedOk then nextStage (placeParts b s) else haltBoot s
    | 6 => if b.ranistamOk then nextStage { s with mran := sha512 (bootImage s).ran, boot := none } else haltBoot s
    | _ => s

/-- Bring-up is under way. -/
def booting (s : State) : Bool := s.powered && !s.bootFail && s.boot.isSome

/-- POWER_ON (R353): from the state right after power-on, or from a package that is off. Stage 1 begins. -/
def execPowerOn (b : BootInput) (s : State) : Host.Outcome State Fault Refusal :=
  if !s.powered || (s.stage == 0 && !s.bootFail) then
    .next { powerLost s with powered := true, stage := 1, boot := some b }
  else .fault .noSuchAgent

/-- RAIL_OUT_OF_TOLERANCE (R349): any of the fifteen rails, at any stage. -/
def execRailOutOfTolerance (rail : Nat) (s : State) : Host.Outcome State Fault Refusal :=
  if !s.powered then .fault .powerOff else if rail < 15 then .next (powerLost s) else .fault .noSuchAgent

/-! ### Temperature (R350, R352) -/

/-- The clock of a partition may change: it has not been lowered since boot, or 1 ms has passed since its last change. -/
def clockFree (s : State) (p : PartState) : Bool := p.thr == 0 || decide (p.clkAt + 1000000 ≤ s.time)

/-- The clock of a partition changes, at most once in 1 ms. -/
def setClock (part clk fewer : Nat) (s : State) : Option State :=
  if clockFree s (getPart s part) then
    some (mapPart s part (fun p => { p with clk, clkAt := s.time, thr := min (p.thr + fewer) 0xFFFF }))
  else none

/-- The die of the partition whose junction is the hottest. -/
def hottest (s : State) (part die : Nat) : Bool :=
  hasPart s part && (diesOf s.config part).contains die && (getDie s die).temp == partTemp s part

/-- CLOCK_REDUCTION (R350): the partition's hottest junction, the named die's, stands at 95 degrees or above. -/
def execClockReduction (part die : Nat) (s : State) : Host.Outcome State Fault Refusal :=
  runEvent s (fun s =>
    if hottest s part die && decide (95 ≤ partTemp s part) && decide (10 < partClk s part) then
      setClock part (partClk s part - 1) 1 s
    else none)

/-- CLOCK_RAISE (R350): it stands below 90. -/
def execClockRaise (part die : Nat) (s : State) : Host.Outcome State Fault Refusal :=
  runEvent s (fun s =>
    if hottest s part die && decide (partTemp s part < 90) && decide (partClk s part < 17) then
      setClock part (partClk s part + 1) 0 s
    else none)

/-- A die's hottest junction is so warm (R352); at 115 degrees the package is switched off (R350). -/
def warm (die temp : Nat) (s : State) : State :=
  if 115 ≤ temp then powerLost s else mapDie die (fun d => { d with temp }) s

/-- THERMAL_SHUTDOWN (R350): as power-off. -/
def execThermalShutdown (temp : Nat) (s : State) : Host.Outcome State Fault Refusal :=
  if !s.powered then .fault .powerOff else if 115 ≤ temp then .next (powerLost s) else .fault .noSuchAgent

/-! ### The configuration space (R347, R354) -/

/-- A capability record: ID, VERSION 1, LENGTH in words, NEXT, and its body padded to words. -/
def capability (id next : Nat) (body : List Byte) : List Byte :=
  let len := ceilDiv (8 + body.length) 8
  leBytes 2 id ++ [1] ++ leBytes 1 len ++ leBytes 2 next ++ leBytes 2 0 ++ body ++ List.replicate (8 * len - 8 - body.length) 0

/-- The bodies of the capabilities, in the order of their IDs. -/
def capabilityBodies (s : State) (part : Nat) : List (Nat × List Byte) :=
  [(1, leBytes 8 ((getPart s part).jrnBase * 2 ^ 22) ++ leBytes 4 65536 ++ leBytes 4 64),
   (2, leBytes 8 (healthWord s part).toNat), (3, leBytes 4 4 ++ leBytes 4 (512 * 2 ^ 20)),
   (4, leBytes 4 1 ++ identityKey), (5, leBytes 4 0x1F), (6, leBytes 4 32)]

/-- The list from an offset on, each record following the last. -/
def capabilityList : Nat → List (Nat × List Byte) → List Byte
  | _, [] => []
  | off, (id, body) :: rest =>
    let next := off + 8 * ceilDiv (8 + body.length) 8
    capability id (if rest.isEmpty then 0 else next) body ++ capabilityList next rest

/-- The 4 KiB of configuration space that the application die and BAR0 read (R347, R354). The widths of the bodies'
fields are a choice (log entry 30). -/
def configSpace (s : State) (part : Nat) : List Byte :=
  let head := leBytes 8 (bootstatWord s).toNat ++ List.replicate 56 0
  let list := if s.capptr = 0 then [] else capabilityList s.capptr (capabilityBodies s part)
  (head ++ list ++ List.replicate 4096 0).take 4096

/-- What a read of BAR0 returns: the endpoint is inactive until stage 5 (R354, R356). -/
def bar0 (s : State) (part : Nat) : Option (List Byte) :=
  if s.powered && decide (5 ≤ s.stage) then some (configSpace s part) else none

end Sys2Proof.Machine
end

