-- ==== Sys2Proof/Machine/Boundary.lean ====
section
/-! DEFINITION. What happens at a thread's instruction boundaries and beside its instructions: committed stores perform,
engine commands issue (R237), elements are read ahead (R227), epochs end (R81), waits end (R276), VP groups yield (R125),
engine faults and single steps are delivered (R332, R335), and old strips close (R240). -/

namespace Sys2Proof.Machine

open Sys2Proof

/-! ### Events of a context, live or not -/

/-- An event of a thread context, whose thread may have exited. -/
def contextEvent (t : Tid) (s : State) (body : State → Option State) : Host.Outcome State Fault Refusal :=
  runEvent s (fun s =>
    match focus t s with
    | none => none
    | some s1 => (body s1).map (fun s2 => refocus (here s) (unitCheck t.uid s2)))

/-! ### Committed effects perform (R236, R237) -/

/-- A store that is still to perform goes before a later one. -/
def blockedBy : List Pending → Store → Bool
  | [], _ => false
  | p :: ps, st =>
    (match p with
      | .store a => storeBefore (fenceMasks ps) a st
      | .fence _ => false
      | .cmd .. => false
      | .slots .. => false
      | .tile _ => false) || blockedBy ps st

/-- A committed effect is a store. -/
def Pending.isStore (p : Pending) : Bool :=
  match p with
  | .store _ => true
  | .fence _ => false
  | .cmd .. => false
  | .slots .. => false
  | .tile _ => false

/-- A committed effect is an engine command. -/
def Pending.isCmd (p : Pending) : Bool :=
  match p with
  | .store _ => false
  | .fence _ => false
  | .cmd .. => true
  | .slots .. => false
  | .tile _ => false

/-- The committed effects of the current thread replaced. -/
def setPerforming (ps : List Pending) (s : State) : State := { s with t := { s.t with performing := ps } }

/-- The first element of a committed store performs, ascending; with its last element the lines it covers are good. -/
def performElem (before after : List Pending) (st : Store) (s : State) : State :=
  match st.elems with
  | [] => setPerforming (before ++ after) s
  | [_] => performStore (setPerforming (before ++ after) s) st
  | e :: es => performBytes (setPerforming (before ++ .store { st with elems := es } :: after) s) e

/-- One committed effect of the current thread performs, where nothing that goes before it is left. -/
def performAt (k : Nat) (s : State) : Option State :=
  let before := s.t.performing.take k
  match s.t.performing.drop k with
  | [] => none
  | p :: after =>
    match p with
    | .store st =>
      if isDet s ∧ st.cls ≠ 16 then
        if before.all (fun p => match p with | .slots .. => true | .fence _ => true | _ => false) then
          some (performPending (setPerforming (before ++ after) s) p)
        else none
      else if blockedBy before st then none else some (performElem before after st s)
    | .cmd .. => none
    | .fence _ | .slots .. | .tile _ =>
      if before.any Pending.isStore then none else some (performPending (setPerforming (before ++ after) s) p)

/-- STRIP_STORES_PERFORM (R237). -/
def execStripStoresPerform (t : Tid) (k : Nat) (s : State) : Host.Outcome State Fault Refusal :=
  contextEvent t s (performAt k)

/-- The first engine command issues, once every store before it has performed. -/
def issueNext : List Pending → List Pending → State → Option State
  | _, [], _ => none
  | before, p :: after, s =>
    match p with
    | .cmd .. => some (performPending (setPerforming (before ++ after) s) p)
    | .store _ => none
    | .fence _ => issueNext (before ++ [p]) after s
    | .slots .. => issueNext (before ++ [p]) after s
    | .tile _ => issueNext (before ++ [p]) after s

/-- ENGINE_COMMAND_ISSUE (R237). -/
def execEngineCommandIssue (t : Tid) (s : State) : Host.Outcome State Fault Refusal :=
  contextEvent t s (fun s => issueNext [] s.t.performing s)

/-! ### Reading ahead (R227) -/

/-- Element `k` of a stream is read ahead; where its read would fault nothing happens. -/
def readAhead (r : Field) (k : Nat) (s : State) : Option State :=
  let m := getStream s r
  match streamType m with
  | none => none
  | some t =>
    if k < m.cons || bitsAt m.word.toNat 0 27 ≤ k || m.ahead.any (fun e => e.1 == k) then none
    else
      let e := streamElem m t (k - m.cons)
      if e.va % e.bytes ≠ 0 then some s
      else
        match translateRun (threadSpace s) .load e.bytes e.va s with
        | .error _ => some s
        | .ok (locs, s1) =>
          match dataError s1 e.va locs with
          | some _ => some s
          | none =>
            let s2 := fillLines locs s1
            some (setStream s2 r { getStream s2 r with ahead := m.ahead ++ [(k, viewValue s2 locs, locs.headD 0)] })

/-- STREAM_READ_AHEAD (R227). A thread that has fenced an epoch reads nothing until that epoch has ended (R81). -/
def execStreamReadAhead (t : Tid) (sm : Nat) (k : Nat) (s : State) : Host.Outcome State Fault Refusal :=
  threadEvent t s (fun s =>
    match afterEpoch s .done with
    | .done s1 => if sm < 8 ∧ s.u.cluster.isSome ∧ s.t.away = false then readAhead (BitVec.ofNat 7 sm) k s1 else none
    | .faultR .. | .faultC .. | .waiting .. | .faultA .. | .stop _ => none)

/-! ### The end of an epoch (R81, R82) -/

/-- Every thread of a launch has executed its `n`-th epoch fence or has exited: all its units have been placed. With no
live thread and no buffer that holds anything, no epoch is left to end. -/
def epochOver (s : State) (l : Launch) (units : List UnitCtx) (n : Nat) : Bool :=
  !unplaced l && units.all (fun u => u.threads.all (fun t => !t.live || decide (n ≤ t.epoch)))
  && (units.any (fun u => u.threads.any (fun t => t.live || !t.wcb.isEmpty)) || !l.leftover.isEmpty)
  && bitsAt (fieldAt l.record 43 1) 0 1 == 1 && s.powered

/-- A buffer of an epoch that ends: of a thread, or of a unit that is complete. -/
inductive EpochBuffer where
  | thread (i : Tid)
  | left (b : List (Nat × DetItem))
  deriving DecidableEq, Repr

/-- Insert a buffer by its logical thread id. -/
def insertBuffer (k : Nat) (b : EpochBuffer) : List (Nat × EpochBuffer) → List (Nat × EpochBuffer)
  | [] => [(k, b)]
  | r :: rs => if k < r.1 then (k, b) :: r :: rs else r :: insertBuffer k b rs

/-- The buffers of a launch in ascending logical thread id. -/
def epochBuffers (l : Launch) (units : List UnitCtx) : List (Nat × EpochBuffer) :=
  let ts := units.flatMap (fun u => u.threads.map (fun t => (u.index * 16 + t.slot, EpochBuffer.thread { uid := u.uid, slot := t.slot })))
  let ls := l.leftover.map (fun b => (b.1, EpochBuffer.left b.2))
  (ts ++ ls).foldl (fun acc b => insertBuffer b.1 b.2 acc) []

/-- One buffer drains up to an epoch. -/
def drainBuffer (n : Nat) (s : State) (b : Nat × EpochBuffer) : State :=
  match b.2 with
  | .thread i => onThread i (fun s => drainEpoch n (drain s)) s
  | .left xs => drainLeft (xs.filter (fun e => decide (e.1 ≤ n))) s

/-- Epoch `n` of a launch ends: the buffers drain, and its clusters' caches hold nothing that the drain has passed. -/
def endEpoch (part : Nat) (l : Launch) (units : List UnitCtx) (n : Nat) (s : State) : State :=
  let s1 := (epochBuffers l units).foldl (drainBuffer n) s
  let s2 := mapLaunch s1 part l.entry l.gen (fun l =>
    { l with epochs := n, leftover := l.leftover.map (fun b => (b.1, b.2.filter (fun e => decide (n < e.1)))) })
  let s3 := units.foldl (fun s u => mapUnit u.uid (fun u => { u with cache := [] }) s) s2
  units.foldl (fun s u => unitCheck u.uid s) s3

/-- EPOCH_END (R81). The end of a launch ends its last epoch as the launch completes. -/
def execEpochEnd (part entry : Nat) (s : State) : Host.Outcome State Fault Refusal :=
  runEvent s (fun s =>
    match (getPart s part).launches.find? (fun l => l.entry == entry) with
    | none => none
    | some l =>
      let units := (allUnits s).filter (fun u => u.part == part && u.entry == entry && u.gen == l.gen)
      if epochOver s l units (l.epochs + 1) then some (endEpoch part l units (l.epochs + 1) s) else none)

/-! ### Waits (R276) -/

/-- What a thread waits for has come about (R276, R325). -/
def waitReady (s : State) : Bool :=
  match s.t.wait with
  | .pins a b n => pinsClear a b n s
  | _ => waitOver s

/-- The current thread is on its cluster and can execute. -/
def onCluster (s : State) : Bool := s.t.live && s.u.cluster.isSome && !s.t.away

/-- WAITING_CONTEXT_READY (R276): the context's next turn is the next step. -/
def execWaitingContextReady (t : Tid) (s : State) : Host.Outcome State Fault Refusal :=
  threadEvent t s (fun s =>
    if onCluster s && waitReady s then some { s with agenda := .issue t :: s.agenda } else none)

/-! ### At a boundary (R332) -/

/-- The current thread stands at an instruction boundary at which it could execute. An instruction that waits for room
in the operation queue has not begun (R163). -/
def atBoundary (s : State) : Bool := onCluster s && (s.t.wait == .none || s.t.wait == .tileRoom)

/-- The open strip is 65,536 cycles of the arithmetic clock old, counted from its checkpoint (R240, R351). -/
def stripOld (s : State) : Bool := decide (655360 ≤ s.t.stripAge)

/-- A VP group has executed its 64 instructions (R125). -/
def vpDue (s : State) : Bool :=
  match s.t.arch.vp with
  | some v => decide (64 ≤ v.count)
  | none => false

/-- The group that ran stops, and the next is chosen. -/
def vpYield (s : State) : State :=
  match s.t.arch.vp with
  | some v => withArch s (chooseGroup s.t.arch v (some (lowestVp v)))
  | none => s

/-- The slot that services an engine fault: its issuer, else the lowest live one (R333). -/
def serviceSlot (s : State) (x : Suspend) : Nat :=
  let live := (unitThreads s).filter (fun t => t.live)
  if live.any (fun t => t.slot == x.issuer) then x.issuer
  else match live with
    | t :: _ => t.slot
    | [] => 16

/-- A suspension that waits to be delivered to the current thread. -/
def dueHere (s : State) (x : Suspend) : Bool := !x.delivered && serviceSlot s x == s.t.slot

/-- The engine fault that is delivered next to the current thread, in the order of R332; none in S mode. -/
def dueFault (s : State) : Option Suspend := if s.t.mode = .user then firstSuspend s.u (dueHere s) else none

/-- Mark the first suspension of a list that a test selects as delivered; the answer says whether there was one. -/
def markFirst (test : Suspend → Bool) : List (Option Suspend) → List (Option Suspend) × Bool
  | [] => ([], false)
  | some x :: xs =>
    if test x then (some { x with delivered := true } :: xs, true)
    else let r := markFirst test xs; (some x :: r.1, r.2)
  | none :: xs => let r := markFirst test xs; (none :: r.1, r.2)

/-- Record that the next engine fault has been delivered. -/
def markDelivered (s : State) : State :=
  let test := dueHere s
  let c := markFirst test s.u.csusp.toList
  let g := markFirst test s.u.gsusp.toList
  let t := markFirst test [s.u.tsusp]
  if c.2 then { s with u := { s.u with csusp := Vector.ofFn (fun (i : Fin 15) => c.1.getD i.val none) } }
  else if g.2 then { s with u := { s.u with gsusp := Vector.ofFn (fun (i : Fin 8) => g.1.getD i.val none) } }
  else { s with u := { s.u with tsusp := t.1.headD none } }

/-- Deliver an engine fault at a boundary: kind A (R329). -/
def deliver (x : Suspend) (s : State) : State :=
  let pc := s.t.arch.pc
  takeTrap (markDelivered s) .A (suspendCause x) pc pc

/-- Breakpoint after a single step: kind A, its step done (R335). -/
def stepTrap (s : State) : State :=
  let pc := s.t.arch.pc
  takeTrap { s with t := { s.t with stepDue := false } } .A (.of 0x17 0 0) pc pc

/-- A dictionary image load is pending and the thread is in the mode that makes it (R33). -/
def loadDue (s : State) : Bool := s.t.dictPending && s.t.mode == .user

/-- What a boundary takes before the next instruction executes (R332 items 3 to 6, then R125). -/
inductive Item where
  | fault (x : Suspend)
  | step
  | age
  | load
  | yield
  deriving DecidableEq, Repr

/-- The first item of R332 that applies at a boundary; none where the next instruction executes. -/
def boundaryItem (s : State) : Option Item :=
  match dueFault s with
  | some x => some (.fault x)
  | none =>
    if s.t.stepDue then some .step
    else if stripOld s then some .age
    else if loadDue s then some .load
    else if vpDue s then some .yield
    else none

/-- Take an item. -/
def takeItem (s : State) (i : Item) : State :=
  match i with
  | .fault x => deliver x s
  | .step => stepTrap s
  | .age => closeForced s 4
  | .load => pendingLoad s
  | .yield => vpYield s

/-- What a boundary takes before the next instruction executes; none where nothing does. -/
def boundary (s : State) : Option State := (boundaryItem s).map (takeItem s)

/-- A thread takes the item that its boundary comes to, where it is of the kind that an event names. -/
def itemEvent (t : Tid) (s : State) (kind : Item → Bool) : Host.Outcome State Fault Refusal :=
  threadEvent t s (fun s =>
    if atBoundary s then
      match boundaryItem s with
      | some i => if kind i then some (takeItem s i) else none
      | none => none
    else none)

/-- ENGINE_FAULT_DELIVERY (R332, R333). -/
def execEngineFaultDelivery (t : Tid) (s : State) : Host.Outcome State Fault Refusal :=
  itemEvent t s (fun i => match i with | .fault _ => true | .step | .age | .load | .yield => false)

/-- SINGLE_STEP_BREAKPOINT (R335). -/
def execSingleStepBreakpoint (t : Tid) (s : State) : Host.Outcome State Fault Refusal := itemEvent t s (· == .step)

/-- STRIP_AGE_CLOSE (R240). -/
def execStripAgeClose (t : Tid) (s : State) : Host.Outcome State Fault Refusal := itemEvent t s (· == .age)

/-- DICT_IMAGE_LOAD (R33). -/
def execDictImageLoad (t : Tid) (s : State) : Host.Outcome State Fault Refusal := itemEvent t s (· == .load)

/-- VP_GROUP_YIELD (R125). -/
def execVpGroupYield (t : Tid) (s : State) : Host.Outcome State Fault Refusal := itemEvent t s (· == .yield)

end Sys2Proof.Machine
end

