-- ==== Sys2Proof/Machine/Dictionary.lean ====
section
/-! DEFINITION. Dictionary words (R35): the state of the dictionary, the entry, its holes, and the expanded long form. -/

namespace Sys2Proof.Machine

open Sys2Proof

/-- Execute the instruction of an expanded long form; no dictionary word and no event is one. -/
def runLong (i : Instr) (s : State) : Host.Outcome State Fault Refusal :=
  match i with
  | .add f => execAdd f s
  | .sub f => execSub f s
  | .and f => execAnd f s
  | .or f => execOr f s
  | .xor f => execXor f s
  | .shl f => execShl f s
  | .shr f => execShr f s
  | .sra f => execSra f s
  | .mul f => execMul f s
  | .mulh f => execMulh f s
  | .mulhu f => execMulhu f s
  | .div f => execDiv f s
  | .divu f => execDivu f s
  | .rem f => execRem f s
  | .remu f => execRemu f s
  | .slt f => execSlt f s
  | .sltu f => execSltu f s
  | .min f => execMin f s
  | .max f => execMax f s
  | .minu f => execMinu f s
  | .maxu f => execMaxu f s
  | .clz f => execClz f s
  | .ctz f => execCtz f s
  | .popc f => execPopc f s
  | .brev f => execBrev f s
  | .sel f => execSel f s
  | .fadd f => execFadd f s
  | .fsub f => execFsub f s
  | .fmul f => execFmul f s
  | .fma f => execFma f s
  | .fdiv f => execFdiv f s
  | .fsqrt f => execFsqrt f s
  | .fmin f => execFmin f s
  | .fmax f => execFmax f s
  | .fcmp f => execFcmp f s
  | .fcvt f => execFcvt f s
  | .ficvt f => execFicvt f s
  | .ifcvt f => execIfcvt f s
  | .addi f => execAddi f s
  | .andi f => execAndi f s
  | .ori f => execOri f s
  | .xori f => execXori f s
  | .shli f => execShli f s
  | .shri f => execShri f s
  | .srai f => execSrai f s
  | .slti f => execSlti f s
  | .sltiu f => execSltiu f s
  | .muli f => execMuli f s
  | .setvli f => execSetvli f s
  | .ldhi f => execLdhi f s
  | .addpc f => execAddpc f s
  | .jalr f => execJalr f s
  | .jal f => execJal f s
  | .beq f => execBeq f s
  | .bne f => execBne f s
  | .blt f => execBlt f s
  | .bge f => execBge f s
  | .bltu f => execBltu f s
  | .bgeu f => execBgeu f s
  | .bp f => execBp f s
  | .setvl f => execSetvl f s
  | .vcfg f => execVcfg f s
  | .vsetty f => execVsetty f s
  | .vadd f => execVadd f s
  | .vsub f => execVsub f s
  | .vmul f => execVmul f s
  | .vfma f => execVfma f s
  | .vfms f => execVfms f s
  | .vdiv f => execVdiv f s
  | .vsqrt f => execVsqrt f s
  | .vmin f => execVmin f s
  | .vmax f => execVmax f s
  | .vabs f => execVabs f s
  | .vneg f => execVneg f s
  | .vand f => execVand f s
  | .vor f => execVor f s
  | .vxor f => execVxor f s
  | .vshl f => execVshl f s
  | .vshr f => execVshr f s
  | .vsra f => execVsra f s
  | .vcmp f => execVcmp f s
  | .vsel f => execVsel f s
  | .vcvt f => execVcvt f s
  | .vwid f => execVwid f s
  | .vnar f => execVnar f s
  | .vsplat f => execVsplat f s
  | .vidx f => execVidx f s
  | .vext f => execVext f s
  | .vins f => execVins f s
  | .vslide f => execVslide f s
  | .vperm f => execVperm f s
  | .vshape f => execVshape f s
  | .vcompress f => execVcompress f s
  | .vexpand f => execVexpand f s
  | .vredsum f => execVredsum f s
  | .vredtsum f => execVredtsum f s
  | .vredmax f => execVredmax f s
  | .vredmin f => execVredmin f s
  | .vscan f => execVscan f s
  | .vexpf f => execVexpf f s
  | .vexpx f => execVexpx f s
  | .vlogf f => execVlogf f s
  | .vlogx f => execVlogx f s
  | .vrcpf f => execVrcpf f s
  | .vrcpx f => execVrcpx f s
  | .vrsqf f => execVrsqf f s
  | .vrsqx f => execVrsqx f s
  | .vsinf f => execVsinf f s
  | .vsinx f => execVsinx f s
  | .vtanhf f => execVtanhf f s
  | .vtanhx f => execVtanhx f s
  | .pand f => execPand f s
  | .por f => execPor f s
  | .pxor f => execPxor f s
  | .pandn f => execPandn f s
  | .ppopc f => execPpopc f s
  | .pfirst f => execPfirst f s
  | .pbrk f => execPbrk f s
  | .pfromx f => execPfromx f s
  | .vpfetch f => execVpfetch f s
  | .vpjoin f => execVpjoin f s
  | .vdot f => execVdot f s
  | .fnset f => execFnset f s
  | .fnld f => execFnld f s
  | .fnst f => execFnst f s
  | .fnmov f => execFnmov f s
  | .fnadd f => execFnadd f s
  | .fnsub f => execFnsub f s
  | .fnmul f => execFnmul f s
  | .fnscl f => execFnscl f s
  | .fnaxpy f => execFnaxpy f s
  | .fndiff f => execFndiff f s
  | .fnint f => execFnint f s
  | .fnquad f => execFnquad f s
  | .fnproj f => execFnproj f s
  | .fnbasis f => execFnbasis f s
  | .fntrace f => execFntrace f s
  | .fneval f => execFneval f s
  | .fnlift f => execFnlift f s
  | .fndeg f => execFndeg f s
  | .fnnorm f => execFnnorm f s
  | .stl f => execStl f s
  | .tcfg f => execTcfg f s
  | .tzero f => execTzero f s
  | .tld f => execTld f s
  | .tldf f => execTldf f s
  | .tst f => execTst f s
  | .tstf f => execTstf f s
  | .tmm f => execTmm f s
  | .tlmm f => execTlmm f s
  | .tadd f => execTadd f s
  | .trecomp f => execTrecomp f s
  | .tdense f => execTdense f s
  | .tcomp f => execTcomp f s
  | .tscale f => execTscale f s
  | .tcvt f => execTcvt f s
  | .trank f => execTrank f s
  | .tsync f => execTsync f s
  | .ld f => execLd f s
  | .st f => execSt f s
  | .vld f => execVld f s
  | .vst f => execVst f s
  | .vldff f => execVldff f s
  | .vldp f => execVldp f s
  | .chsend f => execChsend f s
  | .chrecv f => execChrecv f s
  | .mfrset f => execMfrset f s
  | .sbind f => execSbind f s
  | .sfree f => execSfree f s
  | .copy f => execCopy f s
  | .chcfg f => execChcfg f s
  | .amoadd f => execAmoadd f s
  | .amofadd f => execAmofadd f s
  | .amomax f => execAmomax f s
  | .amomin f => execAmomin f s
  | .amoand f => execAmoand f s
  | .amoor f => execAmoor f s
  | .amoswap f => execAmoswap f s
  | .amocas f => execAmocas f s
  | .amofmax f => execAmofmax f s
  | .fence f => execFence f s
  | .waitc f => execWaitc f s
  | .tlwait f => execTlwait f s
  | .tlread f => execTlread f s
  | .stend f => execStend f s
  | .bar f => execBar f s
  | .launch f => execLaunch f s
  | .launchNb f => execLaunchNb f s
  | .join f => execJoin f s
  | .cancel f => execCancel f s
  | .ccread f => execCcread f s
  | .yield f => execYield f s
  | .lanepart f => execLanepart f s
  | .coll f => execColl f s
  | .xsend f => execXsend f s
  | .exit f => execExit f s
  | .dload f => execDload f s
  | .dsync f => execDsync f s
  | .dread f => execDread f s
  | .sysrd f => execSysrd f s
  | .syswr f => execSyswr f s
  | .sysset f => execSysset f s
  | .sysclr f => execSysclr f s
  | .svc f => execSvc f s
  | .trap f => execTrap f s
  | .tret f => execTret f s
  | .tlbinv f => execTlbinv f s
  | .brkpt f => execBrkpt f s
  | .udf .. | .dictionaryWord .. | .stripAgeClose .. | .engineCommandIssue .. | .waitingContextReady .. |
    .vpGroupYield .. | .dictImageLoad .. | .streamReadAhead .. | .epochEnd .. | .copyStart .. | .copyComplete .. |
    .tileOperationFire .. | .tileOperationComplete .. | .engineFaultDelivery .. | .singleStepBreakpoint .. |
    .rprSuspWrite .. | .cpstatSuspWrite .. | .vtrWrite .. | .endunitWrite .. | .ctxtblKick .. | .unitPlacement .. |
    .threadStart .. | .priorityAging .. | .preemption .. | .quantumExpiry .. | .idleSwitchOut .. | .unitRestore .. |
    .reclaimDeadlineExpiry .. | .poolEntryQuarantineEnd .. | .adqtailWrite .. | .hostLaunchCommand .. |
    .hostReadCounterCommand .. | .hostCancelCommand .. | .hostJoinCommand .. | .hostJoinComplete .. |
    .hostCommandInvalid .. | .doorbellWrite .. | .xsendPacketArrival .. | .xsendLaunchAccept .. |
    .terminationRound .. | .jobCancelMessage .. | .collectiveMatch .. | .collectiveChunkFinal .. |
    .collectiveComplete .. | .collectivePatienceExpiry .. | .collectiveMemberLost .. | .portEnable .. |
    .lanesTrained .. | .keyAgreed .. | .peerAttestationFailure .. | .flitReceive .. | .flitResend .. |
    .retryWindowAcknowledged .. | .keyReagreement .. | .persistentLaneFailure .. | .linkFailure .. |
    .portRetrain .. | .ingressWrite .. | .egressLine .. | .sramCorrectedError .. | .sramUncorrectableError .. |
    .dramCorrectedError .. | .dramUncorrectableError .. | .partitionChange .. | .attestationReport .. |
    .powerOn .. | .railOutOfTolerance .. | .clockReduction .. | .clockRaise .. | .thermalShutdown .. |
    .stripStoresPerform .. | .groupRegistration .. | .cccfgWrite .. | .adqWrite .. => finish (illegal s)

/-- The table's entry of the current thread. -/
def dictEntry (s : State) (e : BitVec 8) : W64 := s.t.dict[e.toNat]'(BitVec.isLt e)

/-- A word under execution, as a fault of it reports it (R35). -/
def withWord (s : State) (v : W64) : State := { s with t := { s.t with iword := v } }

/-- The current thread has entered a trap since `s`: each entry puts a divergence aside (R329). -/
def trapTaken (s t : State) : Bool := t.t.vpHeld.length == s.t.vpHeld.length + 1

/-- Every fault of an expanded form reports the form in tval (R35). An engine fault that it meets again, a breakpoint and a
supervisor call are no faults of the word (log entry 36). -/
def reportForm (v : W64) (s : State) (r : Host.Outcome State Fault Refusal) : Host.Outcome State Fault Refusal :=
  match r with
  | .next t =>
    if trapTaken s t && !([0x12, 0x17, 0x18].contains (bitsAt t.t.tcause.toNat 0 8)) then
      .next { t with t := { t.t with tval := v } }
    else .next t
  | .fault f => .fault f
  | .refused r => .refused r

/-- The expanded form executes, or is no instruction (R35 steps 4 and 5). -/
def runExpanded (v : W64) (s : State) : Host.Outcome State Fault Refusal :=
  match decodeLong v with
  | none => finish (illegalOp (longOpc v) (withWord s v))
  | some i => reportForm v s (runLong i (withWord s v))

/-- DICTIONARY_WORD (R35). -/
def execDictionaryWord (e : BitVec 8) (a b c : Field) (s : State) : Host.Outcome State Fault Refusal :=
  if !s.powered then .fault .powerOff
  else if s.bootFail || s.stage != 7 then .fault .bootHalted
  else if !s.t.live then .fault .noSuchAgent
  else
    let entry := dictEntry s e
    if s.t.dictLoading then finish (faultR 0x03 entry s)
    else if entry = undefinedEntry then finish (faultR 0x02 entry s)
    else runExpanded (expandEntry entry a b c) s

end Sys2Proof.Machine
end

