-- ==== Sys2Proof/Machine/Dispatch.lean ====
section
/-! DEFINITION. Dispatch: one arm per constructor of Instr, each a direct call of the meaning of its instruction. -/

namespace Sys2Proof.Machine

open Sys2Proof

def exec (i : Instr) (s : State) : Host.Outcome State Fault Refusal :=
  match i with
  | .udf x => Sys2Proof.Machine.execUdf x s
  | .add f => Sys2Proof.Machine.execAdd f s
  | .sub f => Sys2Proof.Machine.execSub f s
  | .and f => Sys2Proof.Machine.execAnd f s
  | .or f => Sys2Proof.Machine.execOr f s
  | .xor f => Sys2Proof.Machine.execXor f s
  | .shl f => Sys2Proof.Machine.execShl f s
  | .shr f => Sys2Proof.Machine.execShr f s
  | .sra f => Sys2Proof.Machine.execSra f s
  | .mul f => Sys2Proof.Machine.execMul f s
  | .mulh f => Sys2Proof.Machine.execMulh f s
  | .mulhu f => Sys2Proof.Machine.execMulhu f s
  | .div f => Sys2Proof.Machine.execDiv f s
  | .divu f => Sys2Proof.Machine.execDivu f s
  | .rem f => Sys2Proof.Machine.execRem f s
  | .remu f => Sys2Proof.Machine.execRemu f s
  | .slt f => Sys2Proof.Machine.execSlt f s
  | .sltu f => Sys2Proof.Machine.execSltu f s
  | .min f => Sys2Proof.Machine.execMin f s
  | .max f => Sys2Proof.Machine.execMax f s
  | .minu f => Sys2Proof.Machine.execMinu f s
  | .maxu f => Sys2Proof.Machine.execMaxu f s
  | .clz f => Sys2Proof.Machine.execClz f s
  | .ctz f => Sys2Proof.Machine.execCtz f s
  | .popc f => Sys2Proof.Machine.execPopc f s
  | .brev f => Sys2Proof.Machine.execBrev f s
  | .sel f => Sys2Proof.Machine.execSel f s
  | .fadd f => Sys2Proof.Machine.execFadd f s
  | .fsub f => Sys2Proof.Machine.execFsub f s
  | .fmul f => Sys2Proof.Machine.execFmul f s
  | .fma f => Sys2Proof.Machine.execFma f s
  | .fdiv f => Sys2Proof.Machine.execFdiv f s
  | .fsqrt f => Sys2Proof.Machine.execFsqrt f s
  | .fmin f => Sys2Proof.Machine.execFmin f s
  | .fmax f => Sys2Proof.Machine.execFmax f s
  | .fcmp f => Sys2Proof.Machine.execFcmp f s
  | .fcvt f => Sys2Proof.Machine.execFcvt f s
  | .ficvt f => Sys2Proof.Machine.execFicvt f s
  | .ifcvt f => Sys2Proof.Machine.execIfcvt f s
  | .addi f => Sys2Proof.Machine.execAddi f s
  | .andi f => Sys2Proof.Machine.execAndi f s
  | .ori f => Sys2Proof.Machine.execOri f s
  | .xori f => Sys2Proof.Machine.execXori f s
  | .shli f => Sys2Proof.Machine.execShli f s
  | .shri f => Sys2Proof.Machine.execShri f s
  | .srai f => Sys2Proof.Machine.execSrai f s
  | .slti f => Sys2Proof.Machine.execSlti f s
  | .sltiu f => Sys2Proof.Machine.execSltiu f s
  | .muli f => Sys2Proof.Machine.execMuli f s
  | .setvli f => Sys2Proof.Machine.execSetvli f s
  | .ldhi f => Sys2Proof.Machine.execLdhi f s
  | .addpc f => Sys2Proof.Machine.execAddpc f s
  | .jalr f => Sys2Proof.Machine.execJalr f s
  | .jal f => Sys2Proof.Machine.execJal f s
  | .beq f => Sys2Proof.Machine.execBeq f s
  | .bne f => Sys2Proof.Machine.execBne f s
  | .blt f => Sys2Proof.Machine.execBlt f s
  | .bge f => Sys2Proof.Machine.execBge f s
  | .bltu f => Sys2Proof.Machine.execBltu f s
  | .bgeu f => Sys2Proof.Machine.execBgeu f s
  | .bp f => Sys2Proof.Machine.execBp f s
  | .setvl f => Sys2Proof.Machine.execSetvl f s
  | .vcfg f => Sys2Proof.Machine.execVcfg f s
  | .vsetty f => Sys2Proof.Machine.execVsetty f s
  | .vadd f => Sys2Proof.Machine.execVadd f s
  | .vsub f => Sys2Proof.Machine.execVsub f s
  | .vmul f => Sys2Proof.Machine.execVmul f s
  | .vfma f => Sys2Proof.Machine.execVfma f s
  | .vfms f => Sys2Proof.Machine.execVfms f s
  | .vdiv f => Sys2Proof.Machine.execVdiv f s
  | .vsqrt f => Sys2Proof.Machine.execVsqrt f s
  | .vmin f => Sys2Proof.Machine.execVmin f s
  | .vmax f => Sys2Proof.Machine.execVmax f s
  | .vabs f => Sys2Proof.Machine.execVabs f s
  | .vneg f => Sys2Proof.Machine.execVneg f s
  | .vand f => Sys2Proof.Machine.execVand f s
  | .vor f => Sys2Proof.Machine.execVor f s
  | .vxor f => Sys2Proof.Machine.execVxor f s
  | .vshl f => Sys2Proof.Machine.execVshl f s
  | .vshr f => Sys2Proof.Machine.execVshr f s
  | .vsra f => Sys2Proof.Machine.execVsra f s
  | .vcmp f => Sys2Proof.Machine.execVcmp f s
  | .vsel f => Sys2Proof.Machine.execVsel f s
  | .vcvt f => Sys2Proof.Machine.execVcvt f s
  | .vwid f => Sys2Proof.Machine.execVwid f s
  | .vnar f => Sys2Proof.Machine.execVnar f s
  | .vsplat f => Sys2Proof.Machine.execVsplat f s
  | .vidx f => Sys2Proof.Machine.execVidx f s
  | .vext f => Sys2Proof.Machine.execVext f s
  | .vins f => Sys2Proof.Machine.execVins f s
  | .vslide f => Sys2Proof.Machine.execVslide f s
  | .vperm f => Sys2Proof.Machine.execVperm f s
  | .vshape f => Sys2Proof.Machine.execVshape f s
  | .vcompress f => Sys2Proof.Machine.execVcompress f s
  | .vexpand f => Sys2Proof.Machine.execVexpand f s
  | .vredsum f => Sys2Proof.Machine.execVredsum f s
  | .vredtsum f => Sys2Proof.Machine.execVredtsum f s
  | .vredmax f => Sys2Proof.Machine.execVredmax f s
  | .vredmin f => Sys2Proof.Machine.execVredmin f s
  | .vscan f => Sys2Proof.Machine.execVscan f s
  | .vexpf f => Sys2Proof.Machine.execVexpf f s
  | .vexpx f => Sys2Proof.Machine.execVexpx f s
  | .vlogf f => Sys2Proof.Machine.execVlogf f s
  | .vlogx f => Sys2Proof.Machine.execVlogx f s
  | .vrcpf f => Sys2Proof.Machine.execVrcpf f s
  | .vrcpx f => Sys2Proof.Machine.execVrcpx f s
  | .vrsqf f => Sys2Proof.Machine.execVrsqf f s
  | .vrsqx f => Sys2Proof.Machine.execVrsqx f s
  | .vsinf f => Sys2Proof.Machine.execVsinf f s
  | .vsinx f => Sys2Proof.Machine.execVsinx f s
  | .vtanhf f => Sys2Proof.Machine.execVtanhf f s
  | .vtanhx f => Sys2Proof.Machine.execVtanhx f s
  | .pand f => Sys2Proof.Machine.execPand f s
  | .por f => Sys2Proof.Machine.execPor f s
  | .pxor f => Sys2Proof.Machine.execPxor f s
  | .pandn f => Sys2Proof.Machine.execPandn f s
  | .ppopc f => Sys2Proof.Machine.execPpopc f s
  | .pfirst f => Sys2Proof.Machine.execPfirst f s
  | .pbrk f => Sys2Proof.Machine.execPbrk f s
  | .pfromx f => Sys2Proof.Machine.execPfromx f s
  | .vpfetch f => Sys2Proof.Machine.execVpfetch f s
  | .vpjoin f => Sys2Proof.Machine.execVpjoin f s
  | .vdot f => Sys2Proof.Machine.execVdot f s
  | .fnset f => Sys2Proof.Machine.execFnset f s
  | .fnld f => Sys2Proof.Machine.execFnld f s
  | .fnst f => Sys2Proof.Machine.execFnst f s
  | .fnmov f => Sys2Proof.Machine.execFnmov f s
  | .fnadd f => Sys2Proof.Machine.execFnadd f s
  | .fnsub f => Sys2Proof.Machine.execFnsub f s
  | .fnmul f => Sys2Proof.Machine.execFnmul f s
  | .fnscl f => Sys2Proof.Machine.execFnscl f s
  | .fnaxpy f => Sys2Proof.Machine.execFnaxpy f s
  | .fndiff f => Sys2Proof.Machine.execFndiff f s
  | .fnint f => Sys2Proof.Machine.execFnint f s
  | .fnquad f => Sys2Proof.Machine.execFnquad f s
  | .fnproj f => Sys2Proof.Machine.execFnproj f s
  | .fnbasis f => Sys2Proof.Machine.execFnbasis f s
  | .fntrace f => Sys2Proof.Machine.execFntrace f s
  | .fneval f => Sys2Proof.Machine.execFneval f s
  | .fnlift f => Sys2Proof.Machine.execFnlift f s
  | .fndeg f => Sys2Proof.Machine.execFndeg f s
  | .fnnorm f => Sys2Proof.Machine.execFnnorm f s
  | .stl f => Sys2Proof.Machine.execStl f s
  | .tcfg f => Sys2Proof.Machine.execTcfg f s
  | .tzero f => Sys2Proof.Machine.execTzero f s
  | .tld f => Sys2Proof.Machine.execTld f s
  | .tldf f => Sys2Proof.Machine.execTldf f s
  | .tst f => Sys2Proof.Machine.execTst f s
  | .tstf f => Sys2Proof.Machine.execTstf f s
  | .tmm f => Sys2Proof.Machine.execTmm f s
  | .tlmm f => Sys2Proof.Machine.execTlmm f s
  | .tadd f => Sys2Proof.Machine.execTadd f s
  | .trecomp f => Sys2Proof.Machine.execTrecomp f s
  | .tdense f => Sys2Proof.Machine.execTdense f s
  | .tcomp f => Sys2Proof.Machine.execTcomp f s
  | .tscale f => Sys2Proof.Machine.execTscale f s
  | .tcvt f => Sys2Proof.Machine.execTcvt f s
  | .trank f => Sys2Proof.Machine.execTrank f s
  | .tsync f => Sys2Proof.Machine.execTsync f s
  | .ld f => Sys2Proof.Machine.execLd f s
  | .st f => Sys2Proof.Machine.execSt f s
  | .vld f => Sys2Proof.Machine.execVld f s
  | .vst f => Sys2Proof.Machine.execVst f s
  | .vldff f => Sys2Proof.Machine.execVldff f s
  | .vldp f => Sys2Proof.Machine.execVldp f s
  | .chsend f => Sys2Proof.Machine.execChsend f s
  | .chrecv f => Sys2Proof.Machine.execChrecv f s
  | .mfrset f => Sys2Proof.Machine.execMfrset f s
  | .sbind f => Sys2Proof.Machine.execSbind f s
  | .sfree f => Sys2Proof.Machine.execSfree f s
  | .copy f => Sys2Proof.Machine.execCopy f s
  | .chcfg f => Sys2Proof.Machine.execChcfg f s
  | .amoadd f => Sys2Proof.Machine.execAmoadd f s
  | .amofadd f => Sys2Proof.Machine.execAmofadd f s
  | .amomax f => Sys2Proof.Machine.execAmomax f s
  | .amomin f => Sys2Proof.Machine.execAmomin f s
  | .amoand f => Sys2Proof.Machine.execAmoand f s
  | .amoor f => Sys2Proof.Machine.execAmoor f s
  | .amoswap f => Sys2Proof.Machine.execAmoswap f s
  | .amocas f => Sys2Proof.Machine.execAmocas f s
  | .amofmax f => Sys2Proof.Machine.execAmofmax f s
  | .fence f => Sys2Proof.Machine.execFence f s
  | .waitc f => Sys2Proof.Machine.execWaitc f s
  | .tlwait f => Sys2Proof.Machine.execTlwait f s
  | .tlread f => Sys2Proof.Machine.execTlread f s
  | .stend f => Sys2Proof.Machine.execStend f s
  | .bar f => Sys2Proof.Machine.execBar f s
  | .launch f => Sys2Proof.Machine.execLaunch f s
  | .launchNb f => Sys2Proof.Machine.execLaunchNb f s
  | .join f => Sys2Proof.Machine.execJoin f s
  | .cancel f => Sys2Proof.Machine.execCancel f s
  | .ccread f => Sys2Proof.Machine.execCcread f s
  | .yield f => Sys2Proof.Machine.execYield f s
  | .lanepart f => Sys2Proof.Machine.execLanepart f s
  | .coll f => Sys2Proof.Machine.execColl f s
  | .xsend f => Sys2Proof.Machine.execXsend f s
  | .exit f => Sys2Proof.Machine.execExit f s
  | .dload f => Sys2Proof.Machine.execDload f s
  | .dsync f => Sys2Proof.Machine.execDsync f s
  | .dread f => Sys2Proof.Machine.execDread f s
  | .sysrd f => Sys2Proof.Machine.execSysrd f s
  | .syswr f => Sys2Proof.Machine.execSyswr f s
  | .sysset f => Sys2Proof.Machine.execSysset f s
  | .sysclr f => Sys2Proof.Machine.execSysclr f s
  | .svc f => Sys2Proof.Machine.execSvc f s
  | .trap f => Sys2Proof.Machine.execTrap f s
  | .tret f => Sys2Proof.Machine.execTret f s
  | .tlbinv f => Sys2Proof.Machine.execTlbinv f s
  | .brkpt f => Sys2Proof.Machine.execBrkpt f s
  | .dictionaryWord e a b c => Sys2Proof.Machine.execDictionaryWord e a b c s
  | .stripAgeClose t => Sys2Proof.Machine.execStripAgeClose t s
  | .engineCommandIssue t => Sys2Proof.Machine.execEngineCommandIssue t s
  | .waitingContextReady t => Sys2Proof.Machine.execWaitingContextReady t s
  | .vpGroupYield t => Sys2Proof.Machine.execVpGroupYield t s
  | .dictImageLoad t => Sys2Proof.Machine.execDictImageLoad t s
  | .streamReadAhead t sm k => Sys2Proof.Machine.execStreamReadAhead t sm k s
  | .epochEnd part entry => Sys2Proof.Machine.execEpochEnd part entry s
  | .copyStart uid tl => Sys2Proof.Machine.execCopyStart uid tl s
  | .copyComplete uid tl => Sys2Proof.Machine.execCopyComplete uid tl s
  | .tileOperationFire uid => Sys2Proof.Machine.execTileOperationFire uid s
  | .tileOperationComplete uid => Sys2Proof.Machine.execTileOperationComplete uid s
  | .engineFaultDelivery t => Sys2Proof.Machine.execEngineFaultDelivery t s
  | .singleStepBreakpoint t => Sys2Proof.Machine.execSingleStepBreakpoint t s
  | .rprSuspWrite t => Sys2Proof.Machine.execRprSuspWrite t s
  | .cpstatSuspWrite t n => Sys2Proof.Machine.execCpstatSuspWrite t n s
  | .vtrWrite t v => Sys2Proof.Machine.execVtrWrite t v s
  | .endunitWrite t => Sys2Proof.Machine.execEndunitWrite t s
  | .ctxtblKick part => Sys2Proof.Machine.execCtxtblKick part s
  | .unitPlacement part cluster => Sys2Proof.Machine.execUnitPlacement part cluster s
  | .threadStart t => Sys2Proof.Machine.execThreadStart t s
  | .priorityAging part entry => Sys2Proof.Machine.execPriorityAging part entry s
  | .preemption part => Sys2Proof.Machine.execPreemption part s
  | .quantumExpiry part uid => Sys2Proof.Machine.execQuantumExpiry part uid s
  | .idleSwitchOut uid => Sys2Proof.Machine.execIdleSwitchOut uid s
  | .unitRestore uid cluster => Sys2Proof.Machine.execUnitRestore uid cluster s
  | .reclaimDeadlineExpiry t => Sys2Proof.Machine.execReclaimDeadlineExpiry t s
  | .poolEntryQuarantineEnd part entry => Sys2Proof.Machine.execPoolEntryQuarantineEnd part entry s
  | .adqtailWrite part v => Sys2Proof.Machine.execAdqtailWrite part v s
  | .hostLaunchCommand part => Sys2Proof.Machine.execHostLaunchCommand part s
  | .hostReadCounterCommand part => Sys2Proof.Machine.execHostReadCounterCommand part s
  | .hostCancelCommand part => Sys2Proof.Machine.execHostCancelCommand part s
  | .hostJoinCommand part => Sys2Proof.Machine.execHostJoinCommand part s
  | .hostJoinComplete part slot => Sys2Proof.Machine.execHostJoinComplete part slot s
  | .hostCommandInvalid part => Sys2Proof.Machine.execHostCommandInvalid part s
  | .doorbellWrite off v => Sys2Proof.Machine.execDoorbellWrite off v s
  | .xsendPacketArrival part p => Sys2Proof.Machine.execXsendPacketArrival part p s
  | .xsendLaunchAccept part k => Sys2Proof.Machine.execXsendLaunchAccept part k s
  | .terminationRound part job remote => Sys2Proof.Machine.execTerminationRound part job remote s
  | .jobCancelMessage part job => Sys2Proof.Machine.execJobCancelMessage part job s
  | .collectiveMatch part job gl remote => Sys2Proof.Machine.execCollectiveMatch part job gl remote s
  | .collectiveChunkFinal part job gl remote order => Sys2Proof.Machine.execCollectiveChunkFinal part job gl remote order s
  | .collectiveComplete part job gl => Sys2Proof.Machine.execCollectiveComplete part job gl s
  | .collectivePatienceExpiry part job gl => Sys2Proof.Machine.execCollectivePatienceExpiry part job gl s
  | .collectiveMemberLost part job gl => Sys2Proof.Machine.execCollectiveMemberLost part job gl s
  | .portEnable port => Sys2Proof.Machine.execPortEnable port s
  | .lanesTrained port => Sys2Proof.Machine.execLanesTrained port s
  | .keyAgreed x peer tier rtt => Sys2Proof.Machine.execKeyAgreed x peer tier rtt s
  | .peerAttestationFailure x => Sys2Proof.Machine.execPeerAttestationFailure x s
  | .flitReceive port f => Sys2Proof.Machine.execFlitReceive port f s
  | .flitResend f => Sys2Proof.Machine.execFlitResend f s
  | .retryWindowAcknowledged a => Sys2Proof.Machine.execRetryWindowAcknowledged a s
  | .keyReagreement x => Sys2Proof.Machine.execKeyReagreement x s
  | .persistentLaneFailure port => Sys2Proof.Machine.execPersistentLaneFailure port s
  | .linkFailure port => Sys2Proof.Machine.execLinkFailure port s
  | .portRetrain port => Sys2Proof.Machine.execPortRetrain port s
  | .ingressWrite dest bytes => Sys2Proof.Machine.execIngressWrite dest bytes s
  | .egressLine port pa => Sys2Proof.Machine.execEgressLine port pa s
  | .sramCorrectedError die core lane => Sys2Proof.Machine.execSramCorrectedError die core lane s
  | .sramUncorrectableError core lane shadowOk => Sys2Proof.Machine.execSramUncorrectableError core lane shadowOk s
  | .dramCorrectedError pa => Sys2Proof.Machine.execDramCorrectedError pa s
  | .dramUncorrectableError pa => Sys2Proof.Machine.execDramUncorrectableError pa s
  | .partitionChange d => Sys2Proof.Machine.execPartitionChange d s
  | .attestationReport part job nonce => Sys2Proof.Machine.execAttestationReport part job nonce s
  | .powerOn b => Sys2Proof.Machine.execPowerOn b s
  | .railOutOfTolerance rail => Sys2Proof.Machine.execRailOutOfTolerance rail s
  | .clockReduction part die => Sys2Proof.Machine.execClockReduction part die s
  | .clockRaise part die => Sys2Proof.Machine.execClockRaise part die s
  | .thermalShutdown temp => Sys2Proof.Machine.execThermalShutdown temp s
  | .stripStoresPerform t k => Sys2Proof.Machine.execStripStoresPerform t k s
  | .groupRegistration part job num g => Sys2Proof.Machine.execGroupRegistration part job num g s
  | .cccfgWrite cluster v => Sys2Proof.Machine.execCccfgWrite cluster v s
  | .adqWrite part v => Sys2Proof.Machine.execAdqWrite part v s

end Sys2Proof.Machine
end

