-- ==== Sys2Proof/Machine/Fetch.lean ====
section
/-! DEFINITION. Fetching an instruction word (R20, R313, R329), a thread's turn up to its instruction, and which agent
moves when the agenda names none (log entry 4). -/

namespace Sys2Proof.Machine

open Sys2Proof

/-! ### Fetch -/

/-- The word at the PC: translated for a fetch, and read as the thread's own loads see it (log entry 32). -/
def fetchWord (s : State) : Except MemFault (W32 × State) :=
  let va := s.t.arch.pc.toNat
  if va % 4 ≠ 0 then .error { code := 0x06, addr := va }
  else
    match translateElem s (threadSpace s) .fetch va 4 with
    | .error e => .error e
    | .ok (locs, s1) =>
      match dataError s1 va locs with
      | some e => .error { e with addr := va }
      | none => .ok (BitVec.ofNat 32 (viewValue s1 locs), s1)

/-- The thread stands at its handler's first instruction, in the strip that trap entry opened (R329). -/
def atHandler (s : State) : Bool :=
  s.t.mode == .super && s.t.arch.pc == s.t.tvec && s.t.strip.opened == 5 && s.t.strip.items.isEmpty
  && s.t.ckpt.pc == s.t.tvec

/-- A fault of a fetch: of kind R, or escalated at the handler's first instruction (R329). DEDUCED: telem is 0, also where the
group of a VP block fetches, which is no access of one element (R127, R326; log entry 32). -/
def fetchFault (e : MemFault) (s : State) : State :=
  if atHandler s then escalate e.code s.t.tvec s
  else takeTrap s .R (.of e.code (BitVec.ofNat 64 e.addr) 0) s.t.arch.pc s.t.arch.pc

/-- The opcode that a native word names, whether or not its other fields are an instruction's (R29); 0 of major 000 with
no opcode. -/
def wordOpc (w : W32) : Nat :=
  match nativeLong w with
  | some l => l.1
  | none => 0

/-- A word that is no instruction (R43, R188 step 1). -/
def noInstruction (w : W32) (s : State) : Host.Outcome State Fault Refusal := finish (illegalOp (wordOpc w) s)

/-- What a thread's turn comes to: a state without an instruction, an instruction to execute, or a word that is none. -/
inductive Turned where
  | took (s : State)
  | run (i : Instr) (s : State)
  | bad (w : W32) (s : State)
  deriving DecidableEq, Repr

/-- Fetch and decode the next word. -/
def fetched (s : State) : Turned :=
  match fetchWord s with
  | .error e => .took (fetchFault e s)
  | .ok (w, s1) =>
    let s2 := withWord s1 (w.setWidth 64)
    match decodeWord w with
    | none => .bad w s2
    | some i => .run i s2

/-- The current thread can take its turn: it waits for nothing, or what it waits for has come about (R276). -/
def ready (s : State) : Bool := onCluster s && (s.t.wait == .none || waitReady s)

/-- A thread's turn (R332): what its boundary takes, or its next instruction. A thread that is not ready does nothing. -/
def turned (s : State) : Turned :=
  if !ready s then .took s
  else if atBoundary s then
    match boundary s with
    | some s1 => .took s1
    | none => fetched s
  else fetched s

/-! ### When the agenda names no agent -/

/-- Every thread of the device. -/
def allTids (s : State) : List Tid :=
  (allUnits s).flatMap (fun u => u.threads.map (fun t => { uid := u.uid, slot := t.slot }))

/-- The first thread that is ready, made the current one. -/
def firstReady (s : State) : List Tid → Option State
  | [] => none
  | t :: ts =>
    match focus t s with
    | some s1 => if ready s1 then some s1 else firstReady s ts
    | none => firstReady s ts

/-- The result of trying an event. -/
abbrev Tried := State → Host.Outcome State Fault Refusal

/-- The events of a thread that may be pending. -/
def threadTries (t : Tid) : List Tried := [execThreadStart t, execStripStoresPerform t 0, execEngineCommandIssue t]

/-- The events of a unit that may be pending. -/
def unitTries (u : UnitCtx) : List Tried :=
  u.threads.flatMap (fun t => threadTries { uid := u.uid, slot := t.slot })
    ++ [execTileOperationFire u.uid, execTileRows u.uid 512, execTileOperationComplete u.uid]
    ++ (List.range 15).flatMap (fun n => [execCopyStart u.uid n, execCopyComplete u.uid n])

/-- Placing a fresh unit, or bringing one of the switched-out units back, on a cluster of a partition. -/
def clusterTries (s : State) (n c : Nat) : List Tried :=
  execUnitPlacement n c :: ((allUnits s).filter (fun u => u.cluster == none)).map (fun u => execUnitRestore u.uid c)

/-- A host join of level 4 that waits, on a device whose job spans no other and has nothing outstanding (R304). -/
def waitsAlone (p : PartState) (j : HostJoin) : Bool :=
  j.ofJob && j.final.isNone && decide ((getJob p j.job).ranks.length ≤ 1) && (getJob p j.job).outstanding == 0

/-- The events of a partition that may be pending. -/
def partTries (s : State) (n : Nat) : List Tried :=
  (getPart s n).launches.map (fun l => execEpochEnd n l.entry)
    ++ ((freeClusters s n).take 1).flatMap (clusterTries s n)
    ++ (getPart s n).hostJoins.map (fun j => execHostJoinComplete n j.slot)
    ++ [execHostLaunchCommand n, execHostReadCounterCommand n, execHostCancelCommand n, execHostJoinCommand n,
        execHostCommandInvalid n, execXsendLaunchAccept n 0]
    ++ ((getPart s n).hostJoins.filter (waitsAlone (getPart s n))).map (fun j => execTerminationRound n j.job [])

/-- Every event that may be pending, in the order in which the model tries them. -/
def pendingTries (s : State) : List Tried :=
  (allUnits s).flatMap unitTries ++ ((List.range 4).filter (fun n => !(diesOf s.config n).isEmpty)).flatMap (partTries s)

/-- The first of the events that has a next state; the machine as it is where none has. -/
def firstEvent (s : State) : List Tried → State
  | [] => s
  | e :: es =>
    match e s with
    | .next s1 => s1
    | .fault _ => firstEvent s es
    | .refused _ => firstEvent s es

/-! ### Who moves -/

/-- The instruction is an event of the table, not an instruction of a thread. -/
def isEvent (i : Instr) : Bool :=
  match i with
  | .udf _ => false
  | .dictionaryWord .. => false
  | _ => (longOf i).isNone

/-- The package runs threads and events (R353). -/
def started (s : State) : Bool := s.powered && !s.bootFail && s.stage == 7

/-- The application die writes DRAM. -/
def appWrite (pa : Nat) (bytes : List Byte) (s : State) : Host.Outcome State Fault Refusal :=
  runEvent s (fun s =>
    if (List.range bytes.length).all (fun i => isDramAddr (pa + i)) then some (deviceWrite pa bytes s) else none)

/-- The factory puts the public key of images into the fuses and fills the flash: before the first bring-up (R3). -/
def manufacture (key : List Byte) (flash : Flash) (s : State) : Host.Outcome State Fault Refusal :=
  if s.powered && s.stage == 0 && s.boot.isNone then .next { s with fuseKey := key, flash } else .fault .noSuchAgent

/-- The application-die firmware writes a firmware image into flash (R3). -/
def flashImage (b : Bool) (image : FwImage) (s : State) : Host.Outcome State Fault Refusal :=
  runEvent s (fun s =>
    some { s with flash := if b then { s.flash with imageB := image } else { s.flash with imageA := image } })

/-- Ranistam maps, or unmaps, a 64 KiB page for the devices behind a root port (R355). -/
def mapIo (port page : Nat) (on : Bool) (s : State) : Host.Outcome State Fault Refusal :=
  runEvent s (fun s =>
    let others := s.ioMap.filter (fun e => e != (port, page))
    if decide (port < 4) && isDramAddr (65536 * page) then
      some { s with ioMap := if on then others ++ [(port, page)] else others }
    else none)

/-- A cluster cache drops a line (R243). -/
def evictLine (uid line : Nat) (s : State) : State :=
  mapUnit uid (fun u => { u with cache := u.cache.filter (fun c => c.line != line) }) s

/-- The translation caches of a partition drop an entry (R314). -/
def evictTlb (part k : Nat) (s : State) : State := mapPart s part (fun p => { p with tlb := p.tlb.eraseIdx k })

/-! ### Placing a word -/

/-- The launch record of the unit that `withFetchWord` places: one vector thread or the MCC thread, 8 lanes. -/
def probeRecord (mcc : Bool) : List Byte :=
  leBytes 8 cspBase ++ leBytes 24 0 ++ leBytes 4 1 ++ leBytes 1 (if mcc then 0 else 1) ++ leBytes 1 1 ++ leBytes 1 32
    ++ leBytes 4 0 ++ leBytes 1 (if mcc then 8 else 0) ++ leBytes 84 0

/-- Its launch. -/
def probeLaunch (mcc : Bool) : Launch :=
  { entry := 0, gen := 1, job := 0, depth := 0, record := probeRecord mcc, parentUid := 0, parent := none, ancestors := [],
    order := 0, outstanding := 1, completed := 0, canc := false, fault := false, nextUnit := 1, met := 0, waited := 0,
    frozen := some 0, glDie := 0, released := false, jseq := 0, epochs := 0, leftover := [], finalTl := none }

/-- Its thread, in the state of R261. -/
def probeThread (mcc : Bool) : Thread :=
  let n := if mcc then 0 else 32
  let a := { Arch.zero with pc := BitVec.ofNat 64 cspBase, vnreg := n, v := List.replicate n 0 }
  { Thread.none with live := true, slot := if mcc then 8 else 0, own := 8, dem := 8, arch := a, ckpt := a,
                     spc := BitVec.ofNat 64 cspBase }

/-- Its unit, with a word at the start of the CSP. -/
def probeUnit (uid w : Nat) : UnitCtx :=
  { UnitCtx.empty with uid, entry := 0, gen := 1, cluster := some 0, csp := Memory.writeN [] 0 (leBytes 4 w) }

/-- The MCC thread alone executes the word. -/
def wantsMcc (w : Nat) : Bool :=
  match nativeLong (BitVec.ofNat 32 w) with
  | some l => match opRow? l.1 with
    | some r => r.kind == .mcc
    | none => false
  | none => false

/-- The machine with one started unit of one thread, whose next instruction is the word. -/
def placeWord (s : State) (w : Nat) : State :=
  let mcc := wantsMcc w
  let s1 := { park s with powered := true, bootFail := false, stage := 7, boot := none, agenda := [], units := [], nextUid := s.nextUid + 1 }
  mapPart { s1 with t := probeThread mcc, u := probeUnit s.nextUid w } 0 (fun p => { p with launches := [probeLaunch mcc] })

end Sys2Proof.Machine
end

