-- ==== Sys2Proof/Machine/Step.lean ====
section
/-! DEFINITION. One step of the machine: the turn that the agenda names, or the next in the model's own order (log
entry 4). -/

namespace Sys2Proof.Machine

open Sys2Proof

/-- The current thread's turn. -/
def runTurn (s : State) : Host.Outcome State Fault Refusal :=
  match turned s with
  | .took s1 => .next s1
  | .run i s1 => exec i s1
  | .bad w s1 => noInstruction w s1

/-- A turn of the agenda, already taken off it. -/
def runAgenda (turn : Turn) (s : State) : Host.Outcome State Fault Refusal :=
  match turn with
  | .issue t =>
    if !s.powered then .fault .powerOff
    else if !started s then .fault .bootHalted
    else
      match focus t s with
      | some s1 => runTurn s1
      | none => .fault .noSuchAgent
  | .event e => if isEvent e then exec e s else .fault .noSuchAgent
  | .boot => if booting s then .next (bootStage s) else .fault .noSuchAgent
  | .tileRows uid n => execTileRows uid n s
  | .manufacture key flash => manufacture key flash s
  | .flashImage b image => flashImage b image s
  | .appWrite pa bytes => appWrite pa bytes s
  | .ioMap port page on => mapIo port page on s
  | .temperature die temp => if !s.powered then .fault .powerOff else .next (warm die temp s)
  | .evictLine uid line => .next (evictLine uid line s)
  | .evictTlb part k => .next (evictTlb part k s)
  | .tick ns => .next (tick ns s)

/-- A step with an empty agenda: a stage of bring-up, else the current thread, else another ready thread, else a pending
event, else nothing. -/
def runDefault (s : State) : Host.Outcome State Fault Refusal :=
  if !s.powered then .fault .powerOff
  else if s.bootFail then .fault .bootHalted
  else if s.stage ≠ 7 then .next (bootStage s)
  else if ready s then runTurn s
  else
    match firstReady s (allTids s) with
    | some s1 => runTurn s1
    | none => .next (firstEvent s (pendingTries s))

/-- One step. -/
def step (s : State) : Host.Outcome State Fault Refusal :=
  match s.agenda with
  | [] => runDefault s
  | turn :: rest => runAgenda turn { s with agenda := rest }

/-- The machine with an instruction of `nbits` bits where `step` fetches next: every instruction is one word. -/
def State.withFetchWord (s : State) (_nbits w : Nat) : State := placeWord s w

end Sys2Proof.Machine
end

