-- ==== Sys2Proof/Safety.lean ====
section
/-! DEFINITION. The words in which the statements speak of a step: when an instruction can execute, what it leaves as it
was, and the invariant that every step keeps. -/

namespace Sys2Proof.Machine

open Sys2Proof

/-! ### When an instruction executes -/

/-- The current thread can execute a form: the package is up, the thread is live, and the checks of R35 step 4 and R43
let the form pass. -/
def Able (opc : Nat) (f : Form) (s : State) : Prop := running s = true ∧ checkForm opc f s = none

/-! ### What an instruction leaves as it was -/

/-- Every byte of memory reads as before to the thread: DRAM and CSP, with its own stores seen (R209). -/
def SameMemory (s t : State) : Prop := ∀ a, viewByte t a = viewByte s a

/-- Nothing has changed but the checkpointed registers of the current thread (R85); its instruction is over. No other
thread, unit, control register, trap register, dictionary, channel, tile or byte of memory is touched. -/
def OnlyArch (s t : State) : Prop := t = { s with t := { stepped s.t with arch := t.t.arch } } ∧ SameMemory s t

/-- The VP divergence behind an instruction that goes on at an address (R125, R127): outside a block there is none before
and after; in a block the PCs of the running group's elements move there, and the group's instruction count rises by 1. -/
def movedVp (s : State) (pc : W64) : Option Vp :=
  s.t.arch.vp.map (fun v => { groupPc v pc with count := v.count + 1 })

/-- The divergence behind an instruction that goes on at the next word. -/
def nextVp (s : State) : Option Vp := movedVp s (s.t.arch.pc + 4)

/-- Among the checkpointed registers only the scalar ones have changed, and the PC; inside a VP block the PCs of the
running group move with it (R125). `ord` is the rounding ordinal (R65). -/
def OnlyX (s t : State) (pc : W64) (ord : Nat) : Prop :=
  t.t.arch = { s.t.arch with pc := pc, vp := movedVp s pc, x := t.t.arch.x, ordinal := ord }

/-- The ordinal after an instruction that counts one RSR rounding, or none (R65). -/
def ordAfter (s : State) (counts : Bool) : Nat :=
  if counts then (s.t.arch.ordinal + 1) % 65536 else s.t.arch.ordinal

/-! ### Instructions that write one scalar register -/

/-- What an instruction does that writes one scalar register, or none, and the PC. -/
structure XRow where
  instr : Form → Instr
  opc : Nat
  /-- the operands raise no fault of the instruction's own -/
  can : Form → State → Prop := fun _ _ => True
  dest : Form → Field := fun f => f.d
  value : Form → State → W64 := fun _ _ => 0
  next : Form → State → W64 := fun _ s => s.t.arch.pc + 4
  counts : Form → State → Bool := fun _ _ => false

/-- The instruction completes, writes its register, and changes nothing else. x0 stays zero (R85). -/
def XRow.Holds (r : XRow) : Prop :=
  ∀ f s, Able r.opc f s → r.can f s →
    ∃ t, exec (r.instr f) s = .next t ∧ OnlyArch s t ∧ OnlyX s t (r.next f s) (ordAfter s (r.counts f s)) ∧
      ∀ n : Field, getX t n = if n = r.dest f ∧ n ≠ 0 ∧ n.toNat < 64 then r.value f s else getX s n

/-! ### Instructions that write elements of one vector register -/

/-- What an instruction does that writes the active elements of a vector operand (R109). -/
structure VRow where
  instr : Form → Instr
  opc : Nat
  /-- the operands that span registers, each checked by R89 -/
  operands : Form → List Field
  /-- the element types accepted -/
  accepts : ElemTy → Bool := fun _ => true
  value : Form → State → ElemTy → Nat → Nat
  /-- whether it counts as an RSR rounding (R65) -/
  rounds : ElemTy → Bool := fun _ => false

/-- The instruction completes: each active element of vd takes its value, in place of the element of the same index, and
nothing else changes but the rounding ordinal. -/
def VRow.Holds (r : VRow) : Prop :=
  ∀ f s, Able r.opc f s → fmtFits f s = true →
    (∀ n ∈ r.operands f, spanOk s n (elemType f s).width = true) → r.accepts (elemType f s) = true →
    ∃ t, exec (r.instr f) s = .next t ∧ OnlyArch s t ∧
      t.t.arch = { s.t.arch with
        pc := s.t.arch.pc + 4, vp := nextVp s
        v := putElems (regbits s) f.d.toNat (elemType f s).width
          ((activeList s f).map (fun i => (i, r.value f s (elemType f s) i))) s.t.arch.v
        ordinal := ordAfter s (r.rounds (elemType f s) && modeCode f s == 5) }

/-! ### Instructions that write chosen elements of one vector register -/

/-- What an instruction does that writes listed elements of a vector operand. -/
structure WRow where
  instr : Form → Instr
  opc : Nat
  /-- the override, the operands and the type raise no fault -/
  can : Form → State → Prop
  /-- the width of an element of the destination -/
  width : Form → State → Nat
  /-- the elements written and their values, in order -/
  writes : Form → State → List (Nat × Nat)
  counts : Form → State → Bool := fun _ _ => false

/-- The instruction completes: the listed elements of vd take their values, and nothing else changes but the rounding
ordinal. -/
def WRow.Holds (r : WRow) : Prop :=
  ∀ f s, Able r.opc f s → r.can f s →
    ∃ t, exec (r.instr f) s = .next t ∧ OnlyArch s t ∧
      t.t.arch = { s.t.arch with
        pc := s.t.arch.pc + 4, vp := nextVp s
        v := putElems (regbits s) f.d.toNat (r.width f s) (r.writes f s) s.t.arch.v
        ordinal := ordAfter s (r.counts f s) }

/-! ### Instructions that write one predicate -/

/-- What an instruction does that writes bits of one predicate. -/
structure PRow where
  instr : Form → Instr
  opc : Nat
  can : Form → State → Prop := fun _ _ => True
  /-- the elements written -/
  elems : Form → State → List Nat
  value : Form → State → Nat → Bool

/-- The instruction completes: the listed bits of P[d] are written, p0 stays all-true, nothing else changes. -/
def PRow.Holds (r : PRow) : Prop :=
  ∀ f s, Able r.opc f s → r.can f s →
    ∃ t, exec (r.instr f) s = .next t ∧ OnlyArch s t ∧
      t.t.arch = { s.t.arch with pc := s.t.arch.pc + 4, vp := nextVp s, p := t.t.arch.p } ∧
      ∀ n i, bitsAt (predBits t n) i 1 =
        if n = f.d.toNat ∧ n ≠ 0 ∧ n < 96 ∧ i ∈ r.elems f s then (if r.value f s i then 1 else 0)
        else bitsAt (predBits s n) i 1

/-! ### Instructions that write a function register -/

/-- What an instruction does that writes a function register whole (R132, R138). -/
structure FnRow where
  instr : Form → Instr
  opc : Nat
  /-- the shape of the result; none where a source is empty or the operands do not fit -/
  shape : Form → State → Option Shape
  /-- what else the operands have to meet -/
  can : Form → State → Prop := fun _ _ => True
  /-- the coefficients of an active element -/
  value : Form → State → Shape → Nat → List Nat

/-- A function register of a shape with a value for each element (R134, R142). -/
def fnHolding (s : State) (h : Shape) (value : Nat → List Nat) : FnReg :=
  { d := h.d, p := h.p, nodal := h.nodal, f64 := h.f64, nelem := s.t.arch.vl, gran := h.granules s.t.arch.vl
    coefs := (List.range s.t.arch.vl).flatMap value }

/-- Only function registers have changed, and with them which of them the strip has written (R144). -/
def OnlyFn (s t : State) : Prop :=
  t = { s with t := { stepped s.t with arch := t.t.arch, strip := { s.t.strip with fnWritten := t.t.strip.fnWritten } } } ∧
    SameMemory s t ∧
    t.t.arch = { s.t.arch with pc := s.t.arch.pc + 4, vp := nextVp s, fn := t.t.arch.fn }

/-- F[d] has taken a value, and every other function register is as before. -/
def FnWritten (s t : State) (d : Field) (r : FnReg) : Prop :=
  ∀ n : Field, getFn t n = if n = d ∧ n.toNat < 16 then r else getFn s n

/-- The instruction completes: F[d] takes the result's shape with vl elements, in the granules that R142 counts; an
inactive element keeps its function, or is zero (R138). Every other register keeps its value, and no byte of memory
changes. -/
def FnRow.Holds (r : FnRow) : Prop :=
  ∀ f s h, Able r.opc f s → r.can f s → r.shape f s = some h → h.p ≤ degreeCap h.d →
    poolShort s f.d (h.granules s.t.arch.vl) = false →
    ∃ t, exec (r.instr f) s = .next t ∧ OnlyFn s t ∧
      FnWritten s t f.d (fnHolding s h (fun i =>
        if i ∈ activeList s f then r.value f s h i
        else keptFn (getFn s f.d) (getFn s f.d).rows h (getFn s f.d).shape.tm h.vm i))

/-! ### Loads and stores -/

/-- No epoch of a deterministic launch is left for the thread to wait for (R81). -/
def EpochEnded (s : State) : Prop := ∀ l, myLaunch s = some l → isDet s = true → s.t.epoch ≤ l.epochs

/-- Nothing has changed but the thread, the lines that its cluster's cache holds, and the translations that the
partition's caches hold (R243, R314). -/
def OnlyThread (s t : State) : Prop :=
  t = { s with t := t.t, u := { s.u with cache := t.u.cache }, parts := t.parts } ∧
    ∀ n, getPart t n = { getPart s n with tlb := (getPart t n).tlb }

/-- Every byte of DRAM and of the scratchpad is as it was. -/
def SameBytes (s t : State) : Prop := ∀ a, rawByte t a = rawByte s a

/-- A load has read: of the thread only the checkpointed registers have changed; no byte of memory has. -/
def OnlyReads (s t : State) : Prop :=
  OnlyThread s t ∧ t.t = { stepped s.t with arch := t.t.arch } ∧ SameBytes s t

/-- The mode and the trap registers but spc and sfi are as they were. -/
def SameTraps (s t : State) : Prop :=
  t.t.mode = s.t.mode ∧ t.t.tvec = s.t.tvec ∧ t.t.tstat = s.t.tstat ∧ t.t.tpc = s.t.tpc ∧ t.t.tcause = s.t.tcause ∧
    t.t.tval = s.t.tval ∧ t.t.telem = s.t.telem ∧ t.t.tscr0 = s.t.tscr0 ∧ t.t.tscr1 = s.t.tscr1

/-- Of the thread nothing has changed but its checkpointed registers, its strip and what has left it (R237, R239); the mode
and the trap registers but spc are as they were. -/
def OnlyStrip (s t : State) : Prop :=
  t.t = { stepped s.t with
    arch := t.t.arch, ckpt := t.t.ckpt, strip := t.t.strip, performing := t.t.performing, wcb := t.t.wcb
    noRollback := t.t.noRollback, stripAge := t.t.stripAge, spc := t.t.spc }

/-- A store waits in the strip (R209, R239): the thread reads its bytes over what it read before, and no other byte
reads differently; DRAM and the scratchpad have not changed. -/
def OnlyBuffered (s t : State) (st : Store) : Prop :=
  OnlyThread s t ∧ OnlyStrip s t ∧ SameBytes s t ∧ t.u = s.u ∧
    ∀ a, viewByte t a = overlayElems a st.elems (viewByte s a)

/-- The elements that streams have read ahead apart, the registers are these (R227). -/
def SameButAhead (a b : Arch) : Prop := dropAhead a = dropAhead b

/-- What an instruction does that reads elements of memory into registers. -/
structure LRow where
  instr : Form → Instr
  opc : Nat
  /-- the checks before translation raise nothing (R219 steps 1 to 4) -/
  can : Form → State → Prop
  /-- the elements read, ascending -/
  places : Form → State → List ElemAt
  /-- the registers, from the state in which the lines are in the cache and the elements' locations -/
  result : Form → State → List ElemLoc → Arch

/-- The load completes where every element translates and no line fails, writes its registers, and leaves every byte of
memory. -/
def LRow.Holds (r : LRow) : Prop :=
  ∀ f s locs s1, Able r.opc f s → EpochEnded s → r.can f s →
    translateElems (threadSpace s) .load (r.places f s) s = (locs, none, s1) → elemsDataError s1 locs = none →
    ∃ t, exec (r.instr f) s = .next t ∧ OnlyReads s t ∧
      SameButAhead t.t.arch { r.result f (fillLines (locs.flatMap (fun e => e.locs)) s1) locs with
        pc := s.t.arch.pc + 4, vp := nextVp s }

/-- What an instruction does that stores elements from registers. -/
structure SRow where
  instr : Form → Instr
  opc : Nat
  can : Form → State → Prop
  places : Form → State → List ElemAt
  store : Form → State → List ElemLoc → Store
  /-- what becomes of the registers beside the PC -/
  result : Form → State → Arch := fun _ s => s.t.arch

/-- The store completes where every element translates. It waits in the strip while its lines number at most 1,024;
a larger one commits the strip, performs, and opens another (R239). -/
def SRow.Holds (r : SRow) : Prop :=
  ∀ f s locs s1, Able r.opc f s → r.can f s →
    translateElems (threadSpace s) .store (r.places f s) s = (locs, none, s1) →
    ∃ t, exec (r.instr f) s = .next t ∧
      SameButAhead t.t.arch { r.result f s with pc := s.t.arch.pc + 4, vp := nextVp s } ∧
      ((storeLines (r.store f s locs)).length ≤ 1024 → OnlyBuffered s t (r.store f s locs)) ∧
      (1024 < (storeLines (r.store f s locs)).length → OnlyStrip s t ∧
        ∀ a, rawByte t a = rawByte (performPending (drain (commit s1)) (.store (r.store f s locs))) a)

/-! ### Trap entry -/

/-- The machine after trap entry (R329): the trap registers hold the cause, the mode is S, and a strip is open at tvec. -/
def Trapped (s t : State) (k : TrapKind) (c : Cause) (spc tpc : W64) : Prop :=
  t.t.mode = .super ∧ t.t.arch.pc = s.t.tvec ∧ t.t.spc = spc ∧ t.t.tpc = tpc ∧
    t.t.tcause = BitVec.ofNat 64 (c.code + c.sub * 2 ^ 8) ∧ t.t.tval = c.tval ∧ t.t.telem = c.telem ∧
    t.t.tstat = tstatEntry s.t k ∧ t.t.tvec = s.t.tvec ∧ t.t.tscr0 = s.t.tscr0 ∧ t.t.tscr1 = s.t.tscr1 ∧
    t.t.strip = .empty 5 ∧ t.t.ckpt = t.t.arch ∧ t.t.dict = s.t.dict ∧ t.t.dictLoading = s.t.dictLoading

/-- The scalar registers after a write of one of them. -/
def WroteX (s t : State) (d : Field) (v : W64) : Prop :=
  ∀ n : Field, getX t n = if n = d ∧ n ≠ 0 ∧ n.toNat < 64 then v else getX s n

/-- A closing instruction has performed what its thread had committed, with the strip (R237): nothing waits, an empty
strip is open behind it, the trap registers but spc are as they were, and a byte of memory differs only where the
statement says, from what the commit's effects leave. -/
def ClosedDrained (s t : State) (bytes : Nat → Byte) : Prop :=
  t.t.performing = [] ∧ t.t.strip = .empty 1 ∧ t.t.ckpt = t.t.arch ∧ t.t.arch.pc = s.t.arch.pc + 4 ∧
    t.t.wait = .none ∧ (s.t.mode = .user → t.t.spc = s.t.arch.pc + 4) ∧ (s.t.mode = .super → t.t.spc = s.t.spc) ∧
    SameTraps s t ∧ ∀ a, rawByte t a = bytes a

/-! ### Closing instructions -/

/-- An instruction has committed the strip, changed the checkpointed registers, and opened a strip after itself (R237,
R238): the strip's effects wait to perform behind those that wait already; the checkpoint is of the new registers; in U
mode spc is the new PC; nothing else has changed. `opened` is how the new strip counts as opened (R241). -/
def ClosedStrip (s t : State) (opened : Nat) : Prop :=
  t = { s with t := { stepped s.t with
    arch := t.t.arch, ckpt := t.t.arch, strip := .empty opened
    performing := s.t.performing ++ stripEffects s, noRollback := false, stripAge := 0
    spc := (match s.t.mode with
      | .user => t.t.arch.pc
      | .super => s.t.spc) } }

/-- A trap of kind C is taken at a closing instruction (R237, R326, R329): its commit has happened, the registers are as
they were, and no byte of memory has changed. -/
def TrappedAfterCommit (s t : State) (c : Cause) : Prop :=
  Trapped s t .C c s.t.arch.pc s.t.arch.pc ∧
    t.t.performing = s.t.performing ++ stripEffects s ∧
    t.t.arch = { s.t.arch with pc := s.t.tvec, vp := none } ∧ t = { s with t := t.t }

/-- A trap of kind R is taken: the registers are those of the checkpoint with nothing read ahead, nothing of the strip is
left, and no byte of memory has changed (R8, R241, R329). The handler runs outside any VP block of the checkpoint, which is
put aside (log entry 31). -/
def RolledBack (s t : State) (c : Cause) : Prop :=
  Trapped s t .R c s.t.ckpt.pc s.t.arch.pc ∧
    t.t.arch = { dropAhead s.t.ckpt with pc := s.t.tvec, vp := none } ∧ t.t.sfi = sfiWord s.t.strip ∧
    t.t.performing = s.t.performing ∧ t = { s with t := t.t }

/-- A vector instruction traps before any effect (R30, R89, R109): Configuration where the type override does not fit SEW;
Illegal instruction where an operand's span is not legal. `ok` says the first, and `spans` the operands with their widths. -/
def OperandsTrap (i : Instr) (s : State) (ok : Bool) (spans : List (Field × Nat)) : Prop :=
  (ok = false → ∃ t, exec i s = .next t ∧ RolledBack s t (.of 0x10 0 0)) ∧
    (ok = true → (∃ e ∈ spans, spanOk s e.1 e.2 = false) →
      ∃ t, exec i s = .next t ∧ RolledBack s t (.of 0x01 s.t.iword (illegalElem s)))

/-- An element-wise instruction traps before any effect where the override or a span is not legal, and then where it does not
accept the type: Configuration (R30, R89, R109 to R111). -/
def VRow.Traps (r : VRow) : Prop :=
  ∀ f s, Able r.opc f s →
    let w := (elemType f s).width
    OperandsTrap (r.instr f) s (fmtFits f s) ((r.operands f).map (fun n => (n, w))) ∧
      (fmtFits f s = true → (∀ n ∈ r.operands f, spanOk s n w = true) → r.accepts (elemType f s) = false →
        ∃ t, exec (r.instr f) s = .next t ∧ RolledBack s t (.of 0x10 0 0))

/-! ### Tile operations -/

/-- Where an operand's descriptor stands, and the tile dimensions it serves. -/
structure DescAt where
  va : W64
  /-- the stored width of an output; none of an input -/
  width : Option Nat := none
  isB : Bool := false
  rows : Nat
  cols : Nat
  deriving DecidableEq, Repr

/-- Read descriptors in order, each with its checks (R174): their bytes and operands. -/
def readDescs : List DescAt → State → Option (List (List Byte × Opnd) × State)
  | [], s => some ([], s)
  | d :: ds, s =>
    match readOpnd s d.va d.width d.isB d.rows d.cols with
    | .error _ => none
    | .ok (b, o, s1) => (readDescs ds s1).map (fun r => ((b, o) :: r.1, r.2))

/-- What a tile instruction does that issues an operation (R162 to R165). -/
structure TRow where
  instr : Form → Instr
  opc : Nat
  descs : Form → State → List DescAt := fun _ _ => []
  can : Form → State → List Opnd → Prop := fun _ _ _ => True
  /-- the operation, but for the bytes of its descriptors -/
  op : Form → State → List Opnd → TileOp
  /-- the header that td takes in issue order; none where it keeps its own -/
  hdr : Form → State → List Opnd → Option TileHdr
  /-- td is a source of the operation too (R168) -/
  source : Form → Bool := fun _ => false
  counts : Form → State → Bool := fun _ _ => false

/-- The operation completes at issue: it joins the queue under the next number with the bytes of its descriptors, td takes
its header, the engine becomes its channels' producer or consumer, and the strip has committed; no byte of memory, no
tile's contents and no register but the PC changes (R162 to R166, R183). -/
def TRow.Holds (r : TRow) : Prop :=
  ∀ f s xs s1, Able r.opc f s → EpochEnded s → s.u.tl15Issued - s.u.tl15 < 32 →
    readDescs (r.descs f s) (openStrip (commit s) 1) = some (xs, s1) →
    let os := xs.map (fun x => x.2)
    let p := { r.op f s os with descA := ((xs[0]?).map (fun x => x.1)).getD [], descB := ((xs[1]?).map (fun x => x.1)).getD [] }
    r.can f s os → chanChecks s1 os = none →
    (∀ h, r.hdr f s os = some h → tileShort s f.d.toNat h (r.source f) = false) →
    ∃ t, exec (r.instr f) s = .next t ∧
      t.u = { s.u with
        ops := s.u.ops ++ [p], tl15Issued := s.u.tl15Issued + 1, hdrs := t.u.hdrs, chans := t.u.chans, cache := t.u.cache } ∧
      (∀ n, getHdr t n = if n = f.d.toNat ∧ n < 16 then (r.hdr f s os).getD (getHdr s n) else getHdr s n) ∧
      (∀ k, k < 16 → getChan t k = { getChan s k with
        prod := if os.any (fun o => o.chan && o.out && o.ch == k) then 8 else (getChan s k).prod
        cons := if os.any (fun o => o.chan && !o.out && o.ch == k) then 8 else (getChan s k).cons }) ∧
      SameButAhead t.t.arch { s.t.arch with
        pc := s.t.arch.pc + 4, vp := nextVp s, ordinal := ordAfter s (r.counts f s) } ∧
      t.t.performing = s.t.performing ++ stripEffects s ++
        (if s.t.performing = [] ∧ stripEffects s = [] ∧ s.t.wcb = [] then [] else [.tile p.num]) ∧
      t.t.strip = .empty 1 ∧ t.t.ckpt = t.t.arch ∧ SameTraps s t ∧ SameBytes s t

/-- The strip has committed, and the context waits at its own instruction with its registers as they were (R276). -/
def WaitsAfterCommit (s t : State) (w : Wait) : Prop :=
  t.t.wait = w ∧ t.t.arch = s.t.arch ∧ t.t.performing = s.t.performing ++ stripEffects s ∧ t.t.strip = .empty 1 ∧
    t.t.ckpt = s.t.arch ∧ t.t.mode = s.t.mode ∧ t = { s with t := t.t }

/-- What a tile instruction does that is carried out before the thread goes on (R164). -/
structure SyncRow where
  instr : Form → Instr
  opc : Nat
  can : Form → State → Prop
  result : Form → State → TileBody
  source : Form → Bool

/-- With no operation outstanding, the engine not suspended and nothing of the thread left to perform, the instruction
completes with the result in td; timeline 15 counts it, the strip has committed, and nothing else changes. With effects left to
perform, which the issue releases (R165), the thread waits for them. -/
def SyncRow.Holds (r : SyncRow) : Prop :=
  ∀ f s, Able r.opc f s → r.can f s → s.u.tsusp = none → s.u.tl15Issued ≤ s.u.tl15 →
    let released : Prop := s.t.performing = [] ∧ stripEffects s = [] ∧ s.t.wcb = []
    (¬released → ∃ t, exec (r.instr f) s = .next t ∧ WaitsAfterCommit s t .performed) ∧
    (released → f.d.toNat < 16 → tileShort s f.d.toNat (r.result f s).hdr (r.source f) = false →
      ∃ t, exec (r.instr f) s = .next t ∧
        t.u = { s.u with
          tl15Issued := s.u.tl15Issued + 1, tl15 := s.u.tl15Issued + 1, hdrs := t.u.hdrs, tiles := t.u.tiles } ∧
        (∀ n, getTile t n = if n = f.d.toNat then r.result f s else getTile s n) ∧
        (∀ n, getHdr t n = if n = f.d.toNat then (r.result f s).hdr else getHdr s n) ∧
        ClosedStrip s { t with u := s.u } 1 ∧ t.t.arch = { s.t.arch with pc := s.t.arch.pc + 4, vp := nextVp s })

/-! ### Events -/

/-- The package is up (R353): threads run and events happen. -/
def PackageUp (s : State) : Prop := s.powered = true ∧ s.bootFail = false ∧ s.stage = 7

/-- An event of a thread completes: what it does, with the thread as the current one, and then the thread that was current
is so again. -/
def EventOfThread (e : Instr) (s : State) (after : State → Prop) : Prop :=
  ∃ x, exec e s = .next (refocus (here s) x) ∧ after x

/-- An event of a thread context that may have ended; after it its unit may end too (R242, R333). -/
def EventOfContext (e : Instr) (i : Tid) (s : State) (after : State → Prop) : Prop :=
  ∃ x, exec e s = .next (refocus (here s) (unitCheck i.uid x)) ∧ after x

/-- An event of an engine of a unit; after it the unit may end (R242, R333). -/
def EventOfEngine (e : Instr) (s : State) (after : State → Prop) : Prop :=
  ∃ x, exec e s = .next (refocus (here s) (settle x)) ∧ after x

/-- An event of the device or the package completes with this machine. -/
def EventGives (e : Instr) (s t : State) : Prop := exec e s = .next t

/-! ### Units and threads in their places -/

/-- Units stand in rising order of their numbers, none of which is 0, each unit's threads in rising order of their slots,
and the current unit and thread stand apart from the others. -/
def InPlace (s : State) : Prop :=
  s.units.Pairwise (fun a b => a.uid < b.uid) ∧ (∀ u ∈ s.units, u.uid ≠ 0 ∧ u.uid ≠ s.u.uid) ∧
    (∀ u ∈ allUnits s, u.threads.Pairwise (fun a b => a.slot < b.slot) ∧ ∀ t ∈ u.threads, t.slot < 16) ∧
    s.u.threads.Pairwise (fun a b => a.slot < b.slot) ∧
    (∀ t ∈ s.u.threads, t.slot ≠ s.t.slot) ∧ (s.u.uid = 0 → s.t = .none ∧ s.u = .empty) ∧
    (16 ≤ s.t.slot → s.t = .none)

/-! ### The invariant -/

/-- Memory and every scratchpad are in their canonical form: cells in rising order, no listed byte equal to what an
unlisted one reads as. -/
def CanonicalMemory (s : State) : Prop :=
  Memory.wf s.mem = true ∧ Memory.wf s.u.csp = true ∧ ∀ u ∈ s.units, Memory.wf u.csp = true

end Sys2Proof.Machine
end

