-- ==== Sys2Proof/Certificates/Slice0/Obligations.lean ====
section
/-! DEFINITION. The statements for the provers. -/

open Sys2Proof Sys2Proof.Machine

/-! ### The scalar range 0x00 to 0x31 -/

/-- The integer instructions (R98, R99): a is X[a], y is X[b] or the sign-extended 14-bit immediate. -/
def Sys2Proof.Machine.integerRows : List XRow :=
  let row (i : Form → Instr) (opc : Nat) (op : W64 → W64 → W64) : XRow :=
    { instr := i, opc := opc, value := fun f s => op (getX s f.a) (operandY f s) }
  let shl (a y : W64) : W64 := a <<< (y.toNat % 64)
  let shr (a y : W64) : W64 := a >>> (y.toNat % 64)
  let sra (a y : W64) : W64 := a.sshiftRight (y.toNat % 64)
  let high (a b : BitVec 128) : W64 := (a * b).extractLsb' 64 64
  [row .add 0x01 (· + ·), row .addi 0x01 (· + ·), row .sub 0x02 (· - ·), row .and 0x03 (· &&& ·),
   row .andi 0x03 (· &&& ·), row .or 0x04 (· ||| ·), row .ori 0x04 (· ||| ·), row .xor 0x05 (· ^^^ ·),
   row .xori 0x05 (· ^^^ ·), row .shl 0x06 shl, row .shli 0x06 shl, row .shr 0x07 shr, row .shri 0x07 shr,
   row .sra 0x08 sra, row .srai 0x08 sra, row .mul 0x09 (· * ·), row .muli 0x09 (· * ·),
   row .mulh 0x0A (fun a y => high (a.signExtend 128) (y.signExtend 128)),
   row .mulhu 0x0B (fun a y => high (a.setWidth 128) (y.setWidth 128)),
   row .div 0x0C (fun a y => if y = 0 then BitVec.allOnes 64 else a.sdiv y),
   row .divu 0x0D (fun a y => if y = 0 then BitVec.allOnes 64 else a / y),
   row .rem 0x0E (fun a y => if y = 0 then a else a.srem y),
   row .remu 0x0F (fun a y => if y = 0 then a else a % y),
   row .slt 0x10 (fun a y => if a.slt y then 1 else 0), row .slti 0x10 (fun a y => if a.slt y then 1 else 0),
   row .sltu 0x11 (fun a y => if a.ult y then 1 else 0), row .sltiu 0x11 (fun a y => if a.ult y then 1 else 0),
   row .min 0x12 (fun a y => if y.slt a then y else a), row .max 0x13 (fun a y => if a.slt y then y else a),
   row .minu 0x14 (fun a y => if y.ult a then y else a), row .maxu 0x15 (fun a y => if a.ult y then y else a)]

/-- Every integer instruction completes wherever its checks pass, writes its result to X[d], and changes nothing else:
no other register, no byte of memory, no trap register (R98, R99). -/
def Sys2Proof.Machine.IntegerInstructionsWriteOneRegister : Prop := ∀ r ∈ integerRows, r.Holds

/-- The bit counts, the reversal and the selection (R100, R101). -/
def Sys2Proof.Machine.bitRows : List XRow :=
  let row (i : Form → Instr) (opc : Nat) (op : W64 → W64) : XRow :=
    { instr := i, opc := opc, value := fun f s => op (getX s f.a) }
  [row .clz 0x16 (fun a => BitVec.ofNat 64 (((List.range 64).find? (fun i => a.getLsbD (63 - i))).getD 64)),
   row .ctz 0x17 (fun a => BitVec.ofNat 64 (((List.range 64).find? (fun i => a.getLsbD i)).getD 64)),
   row .popc 0x18 (fun a => BitVec.ofNat 64 ((List.range 64).filter (fun i => a.getLsbD i)).length),
   row .brev 0x19 (fun a => BitVec.ofNat 64 (((List.range 64).filter (fun i => a.getLsbD i)).map (fun i => 2 ^ (63 - i))).sum),
   { instr := .sel, opc := 0x1A, value := fun f s => if getX s f.c = 0 then getX s f.b else getX s f.a }]

/-- The bit counts, the reversal and the selection complete, write X[d], and change nothing else (R100, R101). -/
def Sys2Proof.Machine.BitInstructionsWriteOneRegister : Prop := ∀ r ∈ bitRows, r.Holds

/-- The words of the divisions are N-R scalar with op6 0x0C to 0x0F, and their long opcodes are the same (R99). -/
def Sys2Proof.Machine.DivisionWordsDecode : Prop :=
  ∀ r ∈ [(Instr.div, 0x0C), (.divu, 0x0D), (.rem, 0x0E), (.remu, 0x0F)], ∀ d a b : Field,
    d.toNat < 64 → a.toNat < 64 → b.toNat < 64 →
    let f : Form := { d := d, a := a, b := b }
    decodeWord (BitVec.ofNat 9 r.2 ++ d ++ a ++ b ++ (0 : BitVec 2)) = some (r.1 f) ∧
      decodeLong (BitVec.ofNat 8 r.2 ++ d ++ a ++ b ++ (0 : BitVec 35)) = some (r.1 f)

/-- The integer instructions, the bit counts, the reversal and the selection complete wherever their checks pass, write X[d],
and change nothing else (R98 to R101). -/
def Obligations.IntegerInstructionsWriteOneRegister : Prop :=
  Sys2Proof.Machine.IntegerInstructionsWriteOneRegister ∧ Sys2Proof.Machine.BitInstructionsWriteOneRegister ∧
    Sys2Proof.Machine.DivisionWordsDecode

/-- The floating-point scalar instructions (R102 to R104): operands and results are bits [w-1:0] of X, flushed by vtr
(R97, R66), and each result is rounded once. -/
def Sys2Proof.Machine.floatRows : List XRow :=
  let out (f : Form) (s : State) (x : Exact) : W64 :=
    BitVec.ofNat 64 (roundTo (vtrFlush s) (scalarType f) x (rndOf s (modeCode f s) 0 0))
  let rd (f : Form) (s : State) (r : Field) : Exact := readFlushed (vtrFlush s) (scalarType f) (getX s r).toNat
  let row (i : Form → Instr) (opc : Nat) (v : Form → State → Exact) : XRow :=
    { instr := i, opc := opc, value := fun f s => out f s (v f s), counts := fun f s => modeCode f s == 5 }
  let exactOrFast (i : Form → Instr) (opc : Nat) (v : Form → State → Exact) : XRow :=
    { instr := i, opc := opc, counts := fun f s => modeCode f s == 5,
      value := fun f s =>
        if f.mod.getLsbD 3 then BitVec.ofNat 64 (roundFastTo (vtrFlush s) (scalarType f) 1 (v f s))
        else out f s (v f s) }
  let sign (f : Form) (s : State) : Rnd := rndOf s (modeCode f s) 0 0
  let bitsOf (f : Form) (s : State) (r : Field) : Nat := (getX s r).toNat % 2 ^ (scalarType f).width
  let half (i : Form → Instr) (opc : Nat) (big : Bool) : XRow :=
    { instr := i, opc := opc, value := fun f s =>
        BitVec.ofNat 64 (minMaxCode big (vtrFlush s) (scalarType f) (bitsOf f s f.a) (bitsOf f s f.b)) }
  [row .fadd 0x1B (fun f s => (rd f s f.a).add (rd f s f.b) (sign f s)),
   row .fsub 0x1C (fun f s => (rd f s f.a).add (rd f s f.b).neg (sign f s)),
   row .fmul 0x1D (fun f s => (rd f s f.a).mul (rd f s f.b)),
   row .fma 0x1E (fun f s =>
     ((rd f s f.a).mul (rd f s f.b)).add (rd f s (if f.c = 0 then f.d else f.c)) (sign f s)),
   exactOrFast .fdiv 0x1F (fun f s => (rd f s f.a).div (rd f s f.b)),
   exactOrFast .fsqrt 0x20 (fun f s => (rd f s f.a).sqrt),
   half .fmin 0x21 false, half .fmax 0x22 true,
   { instr := .fcmp, opc := 0x23, value := fun f s =>
       if condHolds (f.mod.toNat % 8) ((rd f s f.a).cmp (rd f s f.b)) then 1 else 0 },
   row .fcvt 0x24 (fun f s => readFlushed (vtrFlush s) (fcvtSource f.b) (getX s f.a).toNat),
   { instr := .ficvt, opc := 0x25, counts := fun f s => modeCode f s == 5, value := fun f s =>
       BitVec.ofNat 64 (roundTo (vtrFlush s) (icvtType f.b) (rd f s f.a) (rndOf s (modeCode f s) 0 0)) },
   row .ifcvt 0x26 (fun f s => (icvtType f.b).exact (getX s f.a).toNat)]

/-- The floating-point scalar instructions complete, write X[d], count a rounding under RSR, and change nothing else
(R97, R102 to R104). That the fast forms of `fdiv` and `fsqrt` count a rounding under RSR too is the model's choice (log entry
41). -/
def Obligations.ScalarFloatInstructionsRoundOnce : Prop := ∀ r ∈ floatRows, r.Holds

/-- Constants, jumps and branches (R105 to R107). A branch compares X[d] and X[a]. -/
def Sys2Proof.Machine.jumpRows : List XRow :=
  let wide (f : Form) : W64 := (f.a ++ f.b ++ f.c ++ (0 : BitVec 11) : BitVec 32).signExtend 64
  let off14 (f : Form) : W64 := (f.b ++ f.c ++ (0 : BitVec 2) : BitVec 16).signExtend 64
  let off21 (f : Form) : W64 := (f.a ++ f.b ++ f.c ++ (0 : BitVec 2) : BitVec 23).signExtend 64
  let target (f : Form) (s : State) : W64 := getX s f.a + (f.b ++ f.c : BitVec 14).signExtend 64
  let branch (i : Form → Instr) (opc : Nat) (test : W64 → W64 → Bool) : XRow :=
    { instr := i, opc := opc, dest := fun _ => 0,
      next := fun f s => s.t.arch.pc + (if test (getX s f.d) (getX s f.a) then off14 f else 4) }
  [{ instr := .ldhi, opc := 0x27, value := fun f _ => wide f },
   { instr := .addpc, opc := 0x28, value := fun f s => s.t.arch.pc + wide f },
   { instr := .jal, opc := 0x29, value := fun _ s => s.t.arch.pc + 4, next := fun f s => s.t.arch.pc + off21 f },
   { instr := .jalr, opc := 0x2A, can := fun f s => (target f s).toNat % 4 = 0, value := fun _ s => s.t.arch.pc + 4,
     next := target },
   branch .beq 0x2B (fun a b => a == b), branch .bne 0x2C (fun a b => a != b), branch .blt 0x2D BitVec.slt,
   branch .bge 0x2E (fun a b => !a.slt b), branch .bltu 0x2F BitVec.ult, branch .bgeu 0x30 (fun a b => !a.ult b),
   { instr := .bp, opc := 0x31, dest := fun _ => 0,
     can := fun f s => f.mod.toNat % 4 ≠ 3 ∧ s.t.arch.vp = none ∧ (s.t.slot = 8 → f.d = 0),
     next := fun f s =>
       let n := if s.t.slot = 8 then 1 else popCount s.t.arch.vl (predBits s f.d.toNat)
       let all := if s.t.slot = 8 then 1 else s.t.arch.vl
       let taken := match f.mod.toNat % 4 with
         | 0 => decide (n ≠ 0)
         | 1 => decide (n = 0)
         | _ => decide (n = all)
       s.t.arch.pc + (if taken then off21 f else 4) }]

/-- `jalr` to an address that is no multiple of 4 takes Misaligned access with the strip rolled back, and links nothing
(R106). -/
def Sys2Proof.Machine.MisalignedJalrTraps : Prop :=
  ∀ f s, Able 0x2A f s →
    let target := getX s f.a + (f.b ++ f.c : BitVec 14).signExtend 64
    target.toNat % 4 ≠ 0 → ∃ t, exec (.jalr f) s = .next t ∧ RolledBack s t (.of 0x06 target 0)

/-- Constants, jumps and branches complete: the link register takes the address of the next word, the PC moves as the
condition says, and nothing else changes; a jump to a misaligned address traps (R105 to R107). What a rollback does with a VP
block is the model's reading (log entry 31). -/
def Obligations.JumpsAndBranchesMoveThePc : Prop :=
  (∀ r ∈ jumpRows, r.Holds) ∧ Sys2Proof.Machine.MisalignedJalrTraps


/-! ### The vector range 0x40 to 0x7D -/

/-- Element-wise arithmetic and bit operations (R110, R111): integers wrap at the element width, floats are flushed by
vtr and rounded once. -/
def Sys2Proof.Machine.elementRows : List VRow :=
  let fl (s : State) := vtrFlush s
  let rd (s : State) (r : Field) (t : ElemTy) (i : Nat) : Exact := readFlushed (fl s) t (getV s r t.width i)
  let md (f : Form) (s : State) (i : Nat) : Rnd := rndOf s (modeCode f s) i 0
  let two (f : Form) : List Field := [f.d, f.a, f.b]
  let one (f : Form) : List Field := [f.d, f.a]
  let addend (f : Form) : Field := if f.c = 0 then f.d else f.c
  let arith (i : Form → Instr) (opc : Nat) (iop : Int → Int → Int) (fop : Exact → Exact → Rnd → Exact) : VRow :=
    { instr := i, opc := opc, operands := two, rounds := ElemTy.isFloat, value := fun f s t i =>
        if t.isFloat then roundTo (fl s) t (fop (rd s f.a t i) (rd s f.b t i) (md f s i)) (md f s i)
        else wrapTo t.width (iop (t.intOf (getV s f.a t.width i)) (t.intOf (getV s f.b t.width i))) }
  let fused (i : Form → Instr) (opc : Nat) (k : Int) (sg : Exact → Exact) : VRow :=
    { instr := i, opc := opc, operands := fun f => [f.d, f.a, f.b, addend f], rounds := ElemTy.isFloat
      value := fun f s t i =>
        if t.isFloat then
          roundTo (fl s) t (((rd s f.a t i).mul (rd s f.b t i)).add (sg (rd s (addend f) t i)) (md f s i)) (md f s i)
        else wrapTo t.width (t.intOf (getV s f.a t.width i) * t.intOf (getV s f.b t.width i)
          + k * t.intOf (getV s (addend f) t.width i)) }
  let quick (f : Form) (s : State) (t : ElemTy) (x : Exact) (i : Nat) : Nat :=
    if f.mod.toNat / 8 % 2 = 1 then roundFastTo (fl s) t 1 x else roundTo (fl s) t x (md f s i)
  let bits (i : Form → Instr) (opc : Nat) (ints : Bool) (op : ElemTy → Nat → Nat → Nat) : VRow :=
    { instr := i, opc := opc, operands := two, accepts := fun t => !(ints && t.isFloat)
      value := fun f s t i => op t (getV s f.a t.width i) (getV s f.b t.width i) }
  let extreme (i : Form → Instr) (opc : Nat) (big : Bool) : VRow :=
    { instr := i, opc := opc, operands := two, value := fun f s t i =>
        minMaxCode big (fl s) t (getV s f.a t.width i) (getV s f.b t.width i) }
  [arith .vadd 0x43 (· + ·) Exact.add, arith .vsub 0x44 (· - ·) (fun a b m => a.add b.neg m),
   arith .vmul 0x45 (· * ·) (fun a b _ => a.mul b), fused .vfma 0x46 1 id, fused .vfms 0x47 (-1) Exact.neg,
   { instr := .vdiv, opc := 0x48, operands := two, rounds := ElemTy.isFloat, value := fun f s t i =>
       let x := t.intOf (getV s f.a t.width i)
       let y := t.intOf (getV s f.b t.width i)
       if t.isFloat then quick f s t ((rd s f.a t i).div (rd s f.b t i)) i
       else if y = 0 then 2 ^ t.width - 1 else wrapTo t.width (x.tdiv y) },
   { instr := .vsqrt, opc := 0x49, operands := one, accepts := ElemTy.isFloat, rounds := ElemTy.isFloat
     value := fun f s t i => quick f s t (rd s f.a t i).sqrt i },
   extreme .vmin 0x4A false, extreme .vmax 0x4B true,
   { instr := .vabs, opc := 0x4C, operands := one, value := fun f s t i =>
       let x := getV s f.a t.width i
       if t.isFloat then x % 2 ^ (t.width - 1) else wrapTo t.width ((t.intOf x).natAbs : Int) },
   { instr := .vneg, opc := 0x4D, operands := one, value := fun f s t i =>
       let x := getV s f.a t.width i
       if t.isFloat then (x + 2 ^ (t.width - 1)) % 2 ^ t.width else wrapTo t.width (-(t.intOf x)) },
   bits .vand 0x4E false (fun _ => Nat.land), bits .vor 0x4F false (fun _ => Nat.lor),
   bits .vxor 0x50 false (fun _ => Nat.xor), bits .vshl 0x51 true (fun t a b => a * 2 ^ (b % t.width) % 2 ^ t.width),
   bits .vshr 0x52 true (fun t a b => a / 2 ^ (b % t.width)),
   bits .vsra 0x53 true (fun t a b =>
     wrapTo t.width (signedOf t.width a / ((2 ^ (b % t.width) : Nat) : Int))),
   { instr := .vsplat, opc := 0x59, operands := fun f => [f.d]
     value := fun f s t _ => (getX s f.a).toNat % 2 ^ t.width },
   { instr := .vidx, opc := 0x5A, operands := fun f => [f.d], rounds := ElemTy.isFloat, value := fun f s t i =>
       if t.isFloat then roundTo (fl s) t (.ofInt i) (md f s i) else i % 2 ^ t.width },
   { instr := .vslide, opc := 0x5D, operands := one, value := fun f s t i =>
       let j := (i : Int) + (getX s f.b).toInt
       if 0 ≤ j ∧ j < (s.t.arch.vl : Int) then getV s f.a t.width j.toNat else s.t.arch.vfill.toNat % 2 ^ t.width },
   { instr := .vperm, opc := 0x5E, operands := two, value := fun f s t i =>
       let j := getV s f.b t.width i
       if j < s.t.arch.vl then getV s f.a t.width j else s.t.arch.vfill.toNat % 2 ^ t.width }]

/-- The element-wise instructions complete where the override, the operands and the type are legal: every active element of vd
takes its result, every other element and everything else is as before (R109 to R111, R115, R116). Else they trap before any
effect: Configuration for an override that does not fit SEW, Illegal instruction for a register span, and Configuration for a
type that they do not accept (R30, R89). That these checks come in this order is the model's choice (log entry 1), and so is
the guard bit of a fast quotient or root of an FP8 or FP4 type (log entry 41). What a rollback does with a VP block is the
model's reading (log entry 31). -/
def Obligations.ElementInstructionsWriteActiveElements : Prop := ∀ r ∈ elementRows, r.Holds ∧ r.Traps

/-- The transcendentals (R122): the exact form rounds the function once, to nearest; the fast form rounds it to nearest
in the narrower format F_g of R76. -/
def Sys2Proof.Machine.transcendentalRows : List VRow :=
  let arg (f : Form) (s : State) (t : ElemTy) (i : Nat) : Exact :=
    readFlushed (vtrFlush s) t (getV s f.a t.width i)
  let exactly (i : Form → Instr) (opc : Nat) (fn : Exact → Exact) : VRow :=
    { instr := i, opc := opc, operands := fun f => [f.d, f.a], accepts := ElemTy.flushes
      value := fun f s t i => roundTo (vtrFlush s) t (fn (arg f s t i)) .rne }
  let g (t : ElemTy) (a b c : Nat) : Nat := match t with
    | .f64 => a
    | .f32 => b
    | _ => c
  let fast (i : Form → Instr) (opc : Nat) (fn : Exact → Exact) (gg : ElemTy → Exact → Nat) : VRow :=
    { instr := i, opc := opc, operands := fun f => [f.d, f.a], accepts := ElemTy.flushes
      value := fun f s t i => roundFastTo (vtrFlush s) t (gg t (arg f s t i)) (fn (arg f s t i)) }
  [fast .vexpf 0x67 Exact.exp (fun t _ => g t 3 2 1), exactly .vexpx 0x68 Exact.exp,
   fast .vlogf 0x69 Exact.log (fun t _ => g t 3 2 1), exactly .vlogx 0x6A Exact.log,
   fast .vrcpf 0x6B Exact.rcp (fun t _ => g t 2 1 1), exactly .vrcpx 0x6C Exact.rcp,
   fast .vrsqf 0x6D Exact.rsq (fun t _ => g t 2 1 1), exactly .vrsqx 0x6E Exact.rsq,
   fast .vsinf 0x6F Exact.sin (fun t x => g t 3 2 (match x.abs.cmp (.ofInt 8192) with
     | some c => if c > 0 then 0 else 1
     | none => 1)),
   exactly .vsinx 0x70 Exact.sin,
   fast .vtanhf 0x71 Exact.tanh (fun t _ => g t 3 2 1), exactly .vtanhx 0x72 Exact.tanh]

/-- The transcendentals complete on the types that R122 accepts, never count as an RSR rounding, and change the active
elements of vd alone (R74 to R77, R122). That a fast form does not count is the model's choice (log entry 41). On another
type, a width that does not fit or an illegal span they trap before any effect (R30, R89); the order of these checks is the
model's choice (log entry 1). What a rollback does with a VP block is the model's reading (log entry 31). -/
def Obligations.TranscendentalsRoundOnce : Prop := ∀ r ∈ transcendentalRows, r.Holds ∧ r.Traps

/-- Conversions, selection, rearrangement, reductions and dot products: the elements that they write (R112 to R121). -/
def Sys2Proof.Machine.rearrangeRows : List WRow :=
  let w (f : Form) (s : State) : Nat := (elemType f s).width
  let spans (f : Form) (s : State) (rs : List Field) : Prop :=
    fmtFits f s = true ∧ ∀ r ∈ rs, spanOk s r (w f s) = true
  let act (f : Form) (s : State) : List Nat := activeList s f
  let conv (i : Form → Instr) (opc : Nat) (dst : ElemTy → Option ElemTy) (ok : Nat → Nat → Prop) : WRow :=
    let target (f : Form) (s : State) : Option ElemTy := if f.fmt = 0 then dst (vtrType s) else ElemTy.ofCode f.fmt.toNat
    { instr := i, opc := opc
      can := fun f s => ∃ d, target f s = some d ∧ ok d.width (vtrType s).width ∧ spanOk s f.d d.width = true ∧
        spanOk s f.a (vtrType s).width = true
      width := fun f s => ((target f s).getD .f32).width
      writes := fun f s => (act f s).map (fun i => (i, convertElem (vtrFlush s) (vtrType s) ((target f s).getD .f32)
        (getV s f.a (vtrType s).width i) (rndOf s (modeCode f s) i 0)))
      counts := fun f s => ((vtrType s).isFloat || ((target f s).getD .f32).isFloat) && modeCode f s == 5 }
  let reduce (i : Form → Instr) (opc : Nat) (rounds : Bool) (v : Form → State → ElemTy → Nat → Nat) : WRow :=
    { instr := i, opc := opc, can := fun f s => spans f s [f.d, f.a, f.b], width := w
      writes := fun f s => [(0, v f s (elemType f s) (getV s f.b (w f s) 0))]
      counts := fun f s => rounds && (elemType f s).isFloat && modeCode f s == 5 }
  let extreme (i : Form → Instr) (opc : Nat) (big : Bool) : WRow := reduce i opc false (fun f s t seed =>
    (act f s).foldl (fun acc i => minMaxCode big (vtrFlush s) t acc (getV s f.a t.width i)) seed)
  [conv .vcvt 0x56 some (fun d w => d = w), conv .vwid 0x57 widened (fun d w => w < d),
   conv .vnar 0x58 narrowed (fun d w => d < w),
   { instr := .vsel, opc := 0x55, can := fun f s => spans f s [f.d, f.a, f.b], width := w
     writes := fun f s => (activeList s { f with pred := 0, pinv := false }).map (fun i =>
       (i, getV s (if i ∈ act f s then f.a else f.b) (w f s) i)) },
   { instr := .vins, opc := 0x5C, can := fun f s => spans f s [f.d], width := w
     writes := fun f s =>
       if (getX s f.b).toNat < vlmax s then [((getX s f.b).toNat, (getX s f.a).toNat % 2 ^ w f s)] else [] },
   { instr := .vshape, opc := 0x5F, width := w
     can := fun f s => spans f s [f.d, f.a] ∧
       (s.t.arch.vl ≠ 0 → getX s f.b ≠ 0 ∧ s.t.arch.vl % (getX s f.b).toNat = 0)
     writes := fun f s =>
       let c := (getX s f.b).toNat
       let r := s.t.arch.vl / c
       (act f s).map (fun i => (i, getV s f.a (w f s) (i % r * c + i / r))) },
   { instr := .vcompress, opc := 0x60, can := fun f s => spans f s [f.d, f.a], width := w
     writes := fun f s => (List.range (act f s).length).zip ((act f s).map (getV s f.a (w f s))) },
   { instr := .vexpand, opc := 0x61, can := fun f s => spans f s [f.d, f.a], width := w
     writes := fun f s => (act f s).zip ((List.range (act f s).length).map (getV s f.a (w f s))) },
   reduce .vredsum 0x62 true (fun f s t seed =>
     (act f s).foldl (fun acc i => sumElem f s t acc (getV s f.a t.width i) i) seed),
   reduce .vredtsum 0x63 true (fun f s t seed =>
     let d := treeDepth s.t.arch.vl
     let leaves := (List.range (2 ^ d)).map (fun i => if i ∈ act f s then some (getV s f.a t.width i) else none)
     ((treeSum f s t d 1 leaves).map (fun x => sumElem f s t seed x (2 ^ d))).getD seed),
   extreme .vredmax 0x64 true, extreme .vredmin 0x65 false,
   { instr := .vscan, opc := 0x66, can := fun f s => spans f s [f.d, f.a, f.b], width := w
     writes := fun f s => scanSums f s (elemType f s) (getV s f.b (w f s) 0) (act f s)
     counts := fun f s => (elemType f s).isFloat && modeCode f s == 5 },
   { instr := .vdot, opc := 0x7D, width := fun f s => (dotType (elemType f s)).width
     can := fun f s => fmtFits f s = true ∧ spanOk s f.d (dotType (elemType f s)).width = true ∧
       spanOk s f.a (w f s) = true ∧ spanOk s f.b (w f s) = true
     writes := fun f s =>
       let t := elemType f s
       let k := dotType t
       let m := rndOf s (modeCode f s) 0 0
       let acc := getV s f.d k.width 0
       let prod (i : Nat) : Exact := (readFlushed (vtrFlush s) t (getV s f.a t.width i)).mul
         (readFlushed (vtrFlush s) t (getV s f.b t.width i))
       if act f s = [] then []
       else if t.isFloat then
         [(0, roundTo (vtrFlush s) k ((readFlushed (vtrFlush s) k acc).add (blockSum ((act f s).map prod)) m) m)]
       else
         [(0, wrapTo k.width ((act f s).foldl (fun (x : Int) i =>
           x + t.intOf (getV s f.a t.width i) * t.intOf (getV s f.b t.width i)) 0 + k.intOf acc))]
     counts := fun f s => (elemType f s).isFloat && modeCode f s == 5 }]

/-- The vector instructions that take one type throughout, with the operands whose spans R89 checks. -/
def Sys2Proof.Machine.spanRows : List ((Form → Instr) × Nat × (Form → List Field)) :=
  let all (f : Form) : List Field := [f.d, f.a, f.b]
  let two (f : Form) : List Field := [f.d, f.a]
  [(.vcmp, 0x54, fun f => [f.a, f.b]), (.vsel, 0x55, all), (.vext, 0x5B, fun f => [f.a]), (.vins, 0x5C, fun f => [f.d]),
   (.vshape, 0x5F, two), (.vcompress, 0x60, two), (.vexpand, 0x61, two), (.vredsum, 0x62, all), (.vredtsum, 0x63, all),
   (.vredmax, 0x64, all), (.vredmin, 0x65, all), (.vscan, 0x66, all)]

/-- The conversions: the type that each makes of SEW's without an override, and the widths it accepts (R113). -/
def Sys2Proof.Machine.conversionRows : List ((Form → Instr) × Nat × (ElemTy → Option ElemTy) × (Nat → Nat → Bool)) :=
  [(.vcvt, 0x56, some, fun d w => d == w), (.vwid, 0x57, widened, fun d w => decide (w < d)),
   (.vnar, 0x58, narrowed, fun d w => decide (d < w))]

/-- Illegal operands of the other vector instructions trap before any effect (R30, R89, R109, R113, R116, R121): an override
or a destination type that does not fit is Configuration, an illegal span Illegal instruction; `vshape` with a column
count that does not divide vl is Configuration. -/
def Sys2Proof.Machine.VectorOperandsTrap : Prop :=
  (∀ r ∈ spanRows, ∀ f s, Able r.2.1 f s →
    OperandsTrap (r.1 f) s (fmtFits f s) ((r.2.2 f).map (fun n => (n, (elemType f s).width)))) ∧
  (∀ f s, Able 0x7D f s → OperandsTrap (.vdot f) s (fmtFits f s)
    [(f.d, (dotType (elemType f s)).width), (f.a, (elemType f s).width), (f.b, (elemType f s).width)]) ∧
  (∀ r ∈ conversionRows, ∀ f s, Able r.2.1 f s →
    let target := if f.fmt = 0 then r.2.2.1 (vtrType s) else ElemTy.ofCode f.fmt.toNat
    (target = none → ∃ t, exec (r.1 f) s = .next t ∧ RolledBack s t (.of 0x10 0 0)) ∧
    (∀ d, target = some d → OperandsTrap (r.1 f) s (r.2.2.2 d.width (vtrType s).width)
      [(f.d, d.width), (f.a, (vtrType s).width)])) ∧
  (∀ f s, Able 0x5F f s → fmtFits f s = true → spanOk s f.d (elemType f s).width = true →
    spanOk s f.a (elemType f s).width = true → s.t.arch.vl ≠ 0 →
    (getX s f.b = 0 ∨ s.t.arch.vl % (getX s f.b).toNat ≠ 0) →
    ∃ t, exec (.vshape f) s = .next t ∧ RolledBack s t (.of 0x10 0 0))

/-- Conversions, selection, rearrangements, reductions, scans and dot products complete where their operands are legal, write
the listed elements, and change nothing else; illegal operands trap before any effect (R112 to R121). The order of the checks
is the model's choice (log entry 1), and so is that `vwid` and `vnar` convert every element from the source as it was before
the instruction, also where vd and va meet (log entry 45). What a rollback does with a VP block is the model's reading (log
entry 31). -/
def Obligations.RearrangementsWriteListedElements : Prop :=
  (∀ r ∈ rearrangeRows, r.Holds) ∧ Sys2Proof.Machine.VectorOperandsTrap

/-- The instructions that write a predicate (R112, R123). -/
def Sys2Proof.Machine.predicateRows : List PRow :=
  let below (s : State) : List Nat := (List.range s.t.arch.vl).filter (fun i => bitsAt (groupBits s) i 1 == 1)
  let bit (s : State) (r : Field) (i : Nat) : Bool := bitsAt (predBits s r.toNat) i 1 == 1
  let row (i : Form → Instr) (opc : Nat) (op : Bool → Bool → Bool) : PRow :=
    { instr := i, opc := opc, elems := fun _ s => below s, value := fun f s i => op (bit s f.a i) (bit s f.b i) }
  let rd (f : Form) (s : State) (r : Field) (i : Nat) : Exact :=
    readFlushed (vtrFlush s) (elemType f s) (getV s r (elemType f s).width i)
  [{ instr := .vcmp, opc := 0x54, elems := fun f s => activeList s f
     can := fun f s => fmtFits f s = true ∧ spanOk s f.a (elemType f s).width = true ∧
       spanOk s f.b (elemType f s).width = true ∧ (f.mod.toNat % 8 = 6 → (elemType f s).isFloat = true)
     value := fun f s i => condHolds (f.mod.toNat % 8) ((rd f s f.a i).cmp (rd f s f.b i)) },
   row .pand 0x73 (fun a b => a && b), row .por 0x74 (fun a b => a || b), row .pxor 0x75 (fun a b => a != b),
   row .pandn 0x76 (fun a b => a && !b),
   { instr := .pbrk, opc := 0x79, elems := fun _ s => List.range s.t.arch.vl
     value := fun f s i => bit s f.b i && (List.range (i + 1)).all (fun j => !bit s f.a j) },
   { instr := .pfromx, opc := 0x7A
     elems := fun f s => (List.range s.t.arch.vl).filter (fun i => decide (i / 64 = (getX s f.b).toNat))
     value := fun f s i => (getX s f.a).getLsbD (i % 64) }]

/-- The predicate instructions complete: the elements below vl (of the running group in a VP block) take their bits, p0
stays all-true, and nothing else changes (R112, R123). -/
def Obligations.PredicateInstructionsWriteOnePredicate : Prop := ∀ r ∈ predicateRows, r.Holds

/-- The vector and function instructions that read registers and write one scalar register (R115, R123, R132). -/
def Sys2Proof.Machine.scalarResultRows : List XRow :=
  let bit (s : State) (r : Field) (i : Nat) : Bool := bitsAt (predBits s r.toNat) i 1 == 1
  [{ instr := .vext, opc := 0x5B, can := fun f s => fmtFits f s = true ∧ spanOk s f.a (elemType f s).width = true
     value := fun f s =>
       let w := (elemType f s).width
       let j := (getX s f.b).toNat
       BitVec.ofNat 64 (if j < s.t.arch.vl then getV s f.a w j else s.t.arch.vfill.toNat % 2 ^ w) },
   { instr := .ppopc, opc := 0x77, value := fun f s =>
       BitVec.ofNat 64 ((List.range s.t.arch.vl).filter (bit s f.a)).length },
   { instr := .pfirst, opc := 0x78, value := fun f s =>
       match (List.range s.t.arch.vl).find? (bit s f.a) with
       | some i => BitVec.ofNat 64 i
       | none => BitVec.allOnes 64 },
   { instr := .fndeg, opc := 0x91, value := fun f s => (getFn s f.a).header }]

/-- The instructions that read vectors, predicates or a function header into X complete, write X[d], and change nothing
else (R115, R123, R160). -/
def Sys2Proof.Machine.ScalarResultsComeFromVectorsAndFunctions : Prop := ∀ r ∈ scalarResultRows, r.Holds

/-! ### The function range 0x80 to 0x92 -/

/-- The instructions that write a function register (R148, R150 to R154, R156, R157, R159). -/
def Sys2Proof.Machine.fnResultRows : List FnRow :=
  let row (s : State) (r : Field) (i : Nat) : List Nat := rowOf (getFn s r).shape (getFn s r).rows i
  let sh (s : State) (r : Field) : Shape := (getFn s r).shape
  let some1 (s : State) (r : Field) (h : Shape) : Option Shape := if (getFn s r).d = 0 then none else some h
  let pair (s : State) (a b : Field) (p : Nat) : Option Shape := pairShape (getFn s a) (getFn s b) p
  let top (s : State) (a b : Field) : Nat := max (getFn s a).p (getFn s b).p
  let lin (s : State) (h : Shape) (a b : Field) (x y : Exact) (i : Nat) : List Nat :=
    linearFn h (sh s a) (sh s b) (sh s a).tm (sh s b).tm h.vm x y (row s a i) (row s b i)
  let plus : Exact := unitValue false
  let minus : Exact := unitValue true
  let convert (i : Form → Instr) (opc : Nat) (shape : Form → State → Option Shape) : FnRow :=
    { instr := i, opc := opc, shape := shape
      value := fun f s h i => convertFn (sh s f.a) h (sh s f.a).tm h.vm (row s f.a i) }
  [{ instr := .fnset, opc := 0x80, shape := fun f s => if getX s f.a = 0 then none else shapeOf (getX s f.a)
     value := fun f s h _ => constFn h ((getX s f.b).toNat % 2 ^ (8 * h.bytes)) },
   { instr := .fnmov, opc := 0x83, shape := fun f s => some1 s f.a (sh s f.a), value := fun f s _ i => row s f.a i },
   { instr := .fnadd, opc := 0x84, shape := fun f s => pair s f.a f.b (top s f.a f.b)
     value := fun f s h i => lin s h f.a f.b plus plus i },
   { instr := .fnsub, opc := 0x85, shape := fun f s => pair s f.a f.b (top s f.a f.b)
     value := fun f s h i => lin s h f.a f.b plus minus i },
   { instr := .fnmul, opc := 0x86
     shape := fun f s =>
       pair s f.a f.b (if f.mod.toNat % 4 = 0 then (getFn s f.a).p + (getFn s f.b).p else top s f.a f.b)
     value := fun f s h i =>
       let ta := (sh s f.a).tm
       let tb := (sh s f.b).tm
       if f.mod.toNat % 4 = 2 then
         collocateFn h (sh s f.a) (sh s f.b) ta tb (nodeValues nodeBits h.p (getFn s f.a).p)
           (nodeValues nodeBits h.p (getFn s f.b).p) (collocationMatrix h.p) (row s f.a i) (row s f.b i)
       else productFn h (sh s f.a) (sh s f.b) ta tb h.vm (row s f.a i) (row s f.b i) },
   { instr := .fnscl, opc := 0x87
     can := fun f s => spanOk s f.b (vtrType s).width = true ∧ (vtrType s = .f32 ∨ vtrType s = .f64)
     shape := fun f s => some1 s f.a (sh s f.a)
     value := fun f s h i => scaleFn h ((vtrType s).exact (getV s f.b (vtrType s).width i)) (row s f.a i) },
   { instr := .fnaxpy, opc := 0x88
     can := fun f s => spanOk s f.b (vtrType s).width = true ∧ (vtrType s = .f32 ∨ vtrType s = .f64)
     shape := fun f s => pair s f.a f.d (top s f.a f.d)
     value := fun f s h i => lin s h f.a f.d ((vtrType s).exact (getV s f.b (vtrType s).width i)) plus i },
   { instr := .fndiff, opc := 0x89, shape := fun f s => if f.b.toNat < (getFn s f.a).d then some (sh s f.a) else none
     value := fun f s h i => diffFn h h.tm h.vm f.b.toNat (row s f.a i) },
   { instr := .fnint, opc := 0x8A
     shape := fun f s =>
       if f.b.toNat < (getFn s f.a).d then some { sh s f.a with p := (getFn s f.a).p + 1 } else none
     value := fun f s h i => intFn (sh s f.a) h (sh s f.a).tm h.vm f.b.toNat (row s f.a i) },
   convert .fnproj 0x8C (fun f s =>
     if (getFn s f.a).nodal ∧ getX s f.b = 0 then none else some1 s f.a { sh s f.a with p := (getX s f.b).toNat }),
   convert .fnbasis 0x8D (fun f s =>
     let q := getX s f.b
     if 3 < q ∨ (q.getLsbD 0 = true ∧ (getFn s f.a).p = 0) then none
     else some1 s f.a { sh s f.a with nodal := q.getLsbD 0, f64 := q.getLsbD 1 }),
   { instr := .fntrace, opc := 0x8E, can := fun f _ => f.d.toNat < 16
     shape := fun f s =>
       if 2 ≤ (getFn s f.a).d ∧ f.mod.toNat / 2 % 4 < (getFn s f.a).d then
         some { sh s f.a with d := (getFn s f.a).d - 1 }
       else none
     value := fun f s h i => traceFn (sh s f.a) h (f.mod.toNat / 2 % 4) (f.mod.toNat % 2 == 1) (row s f.a i) },
   { instr := .fnlift, opc := 0x90
     shape := fun f s =>
       if (getFn s f.a).d = 3 ∨ (getFn s f.a).d < f.b.toNat then none
       else some1 s f.a { sh s f.a with d := (getFn s f.a).d + 1 }
     value := fun f s h i => liftFn (sh s f.a) h f.b.toNat (row s f.a i) }]

/-- The function instructions complete where the result's shape exists, its degree is within the cap of R131 and the
pool has the granules: F[d] takes the result and nothing else changes (R132, R135, R138, R144, R148 to R159). -/
def Sys2Proof.Machine.FunctionInstructionsWriteOneFunction : Prop := ∀ r ∈ fnResultRows, r.Holds

/-- `fnset` with a shape word of zero empties F[d] (R148). -/
def Sys2Proof.Machine.FnsetOfZeroEmptiesTheRegister : Prop :=
  ∀ f s, Able 0x80 f s → getX s f.a = 0 →
    ∃ t, exec (.fnset f) s = .next t ∧ OnlyFn s t ∧ FnWritten s t f.d .empty

/-- The function instructions complete and write F[d] alone (R132, R135, R138, R144, R148 to R159). That nodal results are the
exact ones rounded once is the model's deduction (log entry 22); `fnmul.c` at degree 0, the coefficients that a shape does not
use and the zeros of a conversion are its choices (log entry 18). -/
def Obligations.FunctionInstructionsWriteOneFunction : Prop :=
  Sys2Proof.Machine.FunctionInstructionsWriteOneFunction ∧ Sys2Proof.Machine.FnsetOfZeroEmptiesTheRegister

/-- The instructions that write reals of functions to a vector register (R155, R157, R158). -/
def Sys2Proof.Machine.functionRealRows : List WRow :=
  let a (f : Form) (s : State) : FnReg := getFn s f.a
  let row (i : Form → Instr) (opc : Nat) (can : Form → State → Prop) (v : Form → State → ElemTy → Nat → Nat) : WRow :=
    { instr := i, opc := opc, width := fun _ s => (vtrType s).width
      can := fun f s => spanOk s f.d (vtrType s).width = true ∧ (vtrType s = .f32 ∨ vtrType s = .f64) ∧
        (a f s).d ≠ 0 ∧ can f s
      writes := fun f s => (activeList s f).map (fun i => (i, v f s (vtrType s) i)) }
  [row .fnquad 0x8B (fun _ _ => True)
     (fun f s t i => quadFn t (a f s).shape (a f s).shape.tm (rowOf (a f s).shape (a f s).rows i)),
   row .fnnorm 0x92 (fun _ _ => True)
     (fun f s t i => normFn t (a f s).shape (a f s).shape.tm (normWeights (a f s).shape)
       (rowOf (a f s).shape (a f s).rows i)),
   row .fneval 0x8F (fun f s => spanOk s f.b (vtrType s).width = true ∧
       f.b.toNat + (a f s).d * spanOf s (vtrType s).width ≤ s.t.arch.vnreg)
     (fun f s t i => evalFn t (a f s).shape (a f s).shape.tm (rowOf (a f s).shape (a f s).rows i)
       (pointOf f s t.width (a f s).d i)),
   row .fntrace 0x8E (fun f s => (a f s).d = 1 ∧ f.mod.toNat / 2 % 4 = 0 ∧ f.d.toNat < s.t.arch.vnreg)
     (fun f s t i => endValue t (a f s).shape 0 (f.mod.toNat % 2 == 1) (rowOf (a f s).shape (a f s).rows i))]

/-- Integrals, norms, values at points and end values complete where vtr.TYPE is f32 or f64 and the operands are legal,
and write the active elements of vd alone (R155, R157, R158). That values through nodes are the exact ones rounded once is the
model's deduction (log entry 22), and the sign of a zero end value its choice (log entry 18). -/
def Obligations.FunctionRealsWriteActiveElements : Prop := ∀ r ∈ functionRealRows, r.Holds

/-! ### Memory accesses of threads, 0xC0 to 0xC8 -/

/-- A scalar load completes where its address is aligned, translates and no line fails: X[d] takes the bytes that the
thread sees at the locations, extended as the format says; nothing else changes but what streams have read ahead (R209,
R217, R227, R235). -/
def Obligations.ScalarLoadReadsWhatTheThreadSees : Prop :=
  ∀ f s locs s1, Able 0xC0 f s → EpochEnded s → (scalarAddr f s).toNat % scalarBytes f = 0 →
    translateElem s (threadSpace s) .load (scalarAddr f s).toNat (scalarBytes f) = .ok (locs, s1) →
    dataError s1 (scalarAddr f s).toNat locs = none →
    ∃ t, exec (.ld f) s = .next t ∧ OnlyReads s t ∧
      SameButAhead t.t.arch { s.t.arch with pc := s.t.arch.pc + 4, vp := nextVp s, x := t.t.arch.x } ∧
      ∀ n : Field, getX t n = if n = f.d ∧ n ≠ 0 ∧ n.toNat < 64 then extendLoaded f (viewValue s locs) else getX s n

/-- A scalar store completes where its address is aligned and translates: its bytes wait in the strip, where the thread
reads them, and every other byte reads as before; no register changes but the PC (R8, R209, R217). -/
def Obligations.ScalarStoreIsSeenByItsThread : Prop :=
  ∀ f s loc locs s1, Able 0xC1 f s → (scalarAddr f s).toNat % scalarBytes f = 0 →
    translateElem s (threadSpace s) .store (scalarAddr f s).toNat (scalarBytes f) = .ok (loc :: locs, s1) →
    ∃ t, exec (.st f) s = .next t ∧
      OnlyBuffered s t (makeStore f.cls.toNat [storeBytes loc (scalarBytes f) (getX s f.d).toNat]) ∧
      SameButAhead t.t.arch { s.t.arch with pc := s.t.arch.pc + 4, vp := nextVp s } ∧
      ∀ a, viewByte t a =
        if loc ≤ a ∧ a < loc + scalarBytes f then BitVec.ofNat 8 ((getX s f.d).toNat / 256 ^ (a - loc)) else viewByte s a

/-- A misaligned scalar access takes Misaligned access: the strip rolls back to its checkpoint, no byte of memory
changes, and the machine is in trap entry with the address in tval (R35, R217, R326, R329). -/
def Sys2Proof.Machine.MisalignedScalarAccessTraps : Prop :=
  ∀ f s, (scalarAddr f s).toNat % scalarBytes f ≠ 0 →
    (Able 0xC0 f s → EpochEnded s → ∃ t, exec (.ld f) s = .next t ∧ RolledBack s t (.of 0x06 (scalarAddr f s) 0)) ∧
    (Able 0xC1 f s → ∃ t, exec (.st f) s = .next t ∧ RolledBack s t (.of 0x06 (scalarAddr f s) 0))

/-- The vector registers after elements have been loaded one after the other (R18, R218): each takes its value, converted with
the record of its block as the elements before it have left it, and rounded once under its own index. -/
def Sys2Proof.Machine.afterLoads (f : Form) (enc : Nat) (s : State) : List ElemLoc → List Nat → List Nat
  | [], v => v
  | e :: es, v =>
    let t := vtrType s
    let record := getV (withArch s { s.t.arch with v }) (scaleReg f) 32 (e.at_.idx / vtrBlock s)
    Sys2Proof.Machine.afterLoads f enc s es (putElems (regbits s) f.d.toNat t.width
      [(e.at_.idx, loadConv enc t record (loadElem s e) (rndOf s (vtrRm s) e.at_.idx 0))] v)

/-- The registers behind a load of plain elements (R109, R212): the vector registers, the ordinal, which counts a rounding
under RSR, and every other register as before. -/
def Sys2Proof.Machine.loadedRegs (f : Form) (enc : Nat) (locs : List ElemLoc) (s : State) : Arch :=
  { s.t.arch with
    v := afterLoads f enc s locs s.t.arch.v
    ordinal := ordAfter s (accessRounds enc (vtrType s) && vtrRm s == 5) }

/-- The vector loads of elements (R210 to R222, R226, R251): plain encodings, bit-sliced blocks, streams, the first
fault absent, and the first planes alone. -/
def Sys2Proof.Machine.loadRows : List LRow :=
  let legal (opc enc : Nat) (f : Form) (s : State) : Prop :=
    accessIllegal opc enc f s = false ∧ accessConfig opc enc f s = false
  let plain (f : Form) (s : State) (enc : Nat) : List ElemAt := (activeList s f).map (elemAddr enc f s)
  let aligned (f : Form) (s : State) (enc : Nat) : Prop := s.t.arch.vl ≠ 0 → alignFault enc f s (plain f s enc) = none
  let enc (f : Form) (s : State) : Nat := accessEnc 0xC2 f s
  let blocks (f : Form) (s : State) (k : Nat) : List ElemAt :=
    (activeBlocks s f (vtrBlock s)).map (fun b =>
      { idx := b.2, bit := 0, bits := k * vtrBlock s
        va := wrapAddr ((packedBase 13 f s + b.1 * ((vtrType s).width * vtrBlock s / 8) : Nat) : Int) })
  let put (f : Form) (s : State) (xs : List (Nat × Nat)) : List Nat :=
    putElems (regbits s) f.d.toNat (vtrType s).width xs s.t.arch.v
  let sliced (f : Form) (s : State) (k : Nat) (locs : List ElemLoc) : Arch :=
    let B := vtrBlock s
    let planes := locs.map (fun e => (e.at_.idx / B, viewValue s e.locs))
    { s.t.arch with v := put f s ((activeList s f).map (fun i =>
        (i, slicedElem (vtrType s).width B k (assocGet 0 planes (i / B)) (i % B)))) }
  let depth (f : Form) (s : State) : Nat := if scaleReg f = 0 then (vtrType s).width else (scaleReg f).toNat
  [{ instr := .vld, opc := 0xC2, places := fun f s => plain f s (enc f s)
     can := fun f s => f.mod.toNat % 4 ≠ 3 ∧ enc f s < 12 ∧ legal 0xC2 (enc f s) f s ∧ aligned f s (enc f s)
     result := fun f s locs => loadedRegs f (enc f s) locs s },
   { instr := .vld, opc := 0xC2, places := fun f s => blocks f s (vtrType s).width
     can := fun f s => f.mod.toNat % 4 ≠ 3 ∧ enc f s = 13 ∧ legal 0xC2 13 f s
     result := fun f s locs => sliced f s (vtrType s).width locs },
   { instr := .vldp, opc := 0xC5, places := fun f s => blocks f s (depth f s), can := legal 0xC5 13
     result := fun f s locs => sliced f s (depth f s) locs },
   { instr := .vldff, opc := 0xC4, places := fun f s => plain f s (accessEnc 0xC4 f s)
     can := fun f s => legal 0xC4 (accessEnc 0xC4 f s) f s ∧ aligned f s (accessEnc 0xC4 f s)
     result := fun f s locs =>
       { loadedRegs f (accessEnc 0xC4 f s) locs s with
         ffvl := if activeList s f = [] then 0 else s.t.arch.vl } },
   { instr := .vld, opc := 0xC2
     places := fun f s => (activeList s f).map (streamElem (getStream s f.b) ((streamType (getStream s f.b)).getD .f32))
     can := fun f s => f.mod.toNat % 4 = 3 ∧ spanOk s f.d (vtrType s).width = true ∧ scaleReg f = 0 ∧ f.fmt = 0 ∧
       s.t.arch.vl ≠ 0 ∧ ∃ st, streamType (getStream s f.b) = some st ∧
         (getStream s f.b).cons + s.t.arch.vl ≤ bitsAt (getStream s f.b).word.toNat 0 27 ∧
         misaligned ((activeList s f).map (streamElem (getStream s f.b) st)) = none
     result := fun f s locs =>
       let t := vtrType s
       let st := (streamType (getStream s f.b)).getD .f32
       let code := vtrRm s
       let xs := (streamCodes f.b locs s).1.map (fun x =>
         (x.1, if st = t then x.2 else convertElem 0 st t x.2 (rndOf s code x.1 0)))
       let a := (consumeStream s f.b).t.arch
       { a with
         v := put f s xs
         ordinal := ordAfter s (st != t && (st.isFloat || t.isFloat) && code == 5) } }]

/-- `vldff` with an element that does not translate (R220): where the fault is Page fault or Access fault and an active
element below it is left, of whole blocks where the encoding has them, it loads those and ffvl takes that bound; else it
takes the element's fault with the strip rolled back. -/
def Sys2Proof.Machine.FirstFaultLoadStopsBelow : Prop :=
  ∀ f s locs e i s1, Able 0xC4 f s → EpochEnded s →
    let enc := accessEnc 0xC4 f s
    let places := (activeList s f).map (elemAddr enc f s)
    let bound := if 1 ≤ enc ∧ enc ≤ 7 then i - i % vtrBlock s else i
    let kept := locs.filter (fun l => decide (l.at_.idx < bound))
    accessIllegal 0xC4 enc f s = false → accessConfig 0xC4 enc f s = false → s.t.arch.vl ≠ 0 →
    alignFault enc f s places = none →
    translateElems (threadSpace s) .load places s = (locs, some (e, i), s1) →
    (e.code = 0x07 ∨ e.code = 0x08 → kept ≠ [] → elemsDataError s1 kept = none →
      ∃ t, exec (.vldff f) s = .next t ∧ OnlyReads s t ∧
        SameButAhead t.t.arch { loadedRegs f enc kept (fillLines (kept.flatMap (fun l => l.locs)) s1) with
          pc := s.t.arch.pc + 4, vp := nextVp s, ffvl := bound }) ∧
    ((e.code ≠ 0x07 ∧ e.code ≠ 0x08) ∨ kept = [] →
      ∃ t, exec (.vldff f) s = .next t ∧ RolledBack s t (.of e.code (BitVec.ofNat 64 e.addr) i))

/-- The elements of a stream are read in ascending order, and of two that overlap the second reads what the first left to be
read (R235): what a read drops of the elements read ahead is the model's reading (log entry 12); with nothing read ahead each is
what the thread sees. -/
def Sys2Proof.Machine.StreamElementsAreReadInOrder : Prop :=
  (∀ r e es s, streamCodes r (e :: es) s =
    let c := streamCode s (getStream s r) e
    let bytes := (e.locs.zip (List.range e.locs.length)).map (fun b => (b.1, BitVec.ofNat 8 (c / 256 ^ b.2)))
    let rest := streamCodes r es (withArch s (dropSeen s.t.arch bytes))
    ((e.at_.idx, c) :: rest.1, rest.2)) ∧
  (∀ r locs s, (∀ n, (getStream s n).ahead = []) → (streamCodes r locs s).1 = locs.map (fun e => (e.at_.idx, loadElem s e)))

/-- An access in mode 11 with vl = 0 that is legal completes: it consumes no element and touches no byte, and raises no Stream
fault, whatever the stream is (R251). A bound stream whose conversion rounds counts one rounding under RSR (R65). -/
def Sys2Proof.Machine.EmptyStreamAccess (i : Instr) (f : Form) (s : State) : Prop :=
  f.mod.toNat % 4 = 3 → spanOk s f.d (vtrType s).width = true → scaleReg f = 0 → f.fmt = 0 → s.t.arch.vl = 0 →
    let rounds := (streamType (getStream s f.b)).any (fun st => st != vtrType s && (st.isFloat || (vtrType s).isFloat))
    ∃ t, exec i s = .next t ∧ OnlyArch s t ∧
      t.t.arch = { s.t.arch with
        pc := s.t.arch.pc + 4, vp := nextVp s, ordinal := ordAfter s (rounds && vtrRm s == 5) }

/-- The vector loads complete where their checks pass, every element translates and no line fails; they write vd, and with it
ffvl or the stream's position, and leave every byte of memory (R210 to R222, R226). `vldff` stops below an element that does
not translate (R220). That block records are v0's, and `vldp` reads every plane, where the form names no register for them, is
the model's choice (log entry 38). What a rollback does with a VP block is the model's reading (log entry 31), and so is that
the conversion of a stream's elements never flushes (log entry 18), and what a read drops of the elements read ahead (log entry
12). -/
def Obligations.VectorLoadsWriteActiveElements : Prop :=
  (∀ r ∈ loadRows, r.Holds) ∧ (∀ f s, Able 0xC2 f s → EpochEnded s → EmptyStreamAccess (.vld f) f s) ∧
    Sys2Proof.Machine.FirstFaultLoadStopsBelow ∧ Sys2Proof.Machine.StreamElementsAreReadInOrder

/-- The vector stores of elements and the store of functions (R149, R210 to R219, R226). -/
def Sys2Proof.Machine.storeRows : List SRow :=
  let enc (f : Form) (s : State) : Nat := accessEnc 0xC3 f s
  let legal (f : Form) (s : State) : Prop :=
    accessIllegal 0xC3 (enc f s) f s = false ∧ accessConfig 0xC3 (enc f s) f s = false
  let plain (f : Form) (s : State) : List ElemAt := (activeList s f).map (elemAddr (enc f s) f s)
  let counted (s : State) (b : Bool) : Arch := { s.t.arch with ordinal := ordAfter s (b && vtrRm s == 5) }
  let stream (f : Form) (s : State) : ElemTy := (streamType (getStream s f.b)).getD .f32
  [{ instr := .vst, opc := 0xC3, places := plain
     can := fun f s => f.mod.toNat % 4 ≠ 3 ∧ enc f s < 12 ∧ legal f s ∧
       (s.t.arch.vl ≠ 0 → alignFault (enc f s) f s (plain f s) = none)
     store := fun f s locs => storeOf (enc f s) f s locs
     result := fun f s => counted s (accessRounds (enc f s) (vtrType s)) },
   { instr := .vst, opc := 0xC3
     places := fun f s => (List.range (s.t.arch.vl / vtrBlock s)).map (fun b =>
       { idx := b * vtrBlock s, bit := 0, bits := (vtrType s).width * vtrBlock s
         va := wrapAddr ((packedBase 13 f s + b * ((vtrType s).width * vtrBlock s / 8) : Nat) : Int) })
     can := fun f s => f.mod.toNat % 4 ≠ 3 ∧ enc f s = 13 ∧ legal f s
     store := fun f s locs => makeStore f.cls.toNat (locs.map (fun e =>
       elemStore e (slicedBlock (vtrType s).width (vtrBlock s)
         ((List.range (vtrBlock s)).map (fun r => getV s f.d (vtrType s).width (e.at_.idx + r)))))) },
   { instr := .vst, opc := 0xC3
     places := fun f s => (activeList s f).map (streamElem (getStream s f.b) (stream f s))
     can := fun f s => f.mod.toNat % 4 = 3 ∧ spanOk s f.d (vtrType s).width = true ∧ scaleReg f = 0 ∧ f.fmt = 0 ∧
       s.t.arch.vl ≠ 0 ∧ streamType (getStream s f.b) = some (stream f s) ∧
       (getStream s f.b).cons + s.t.arch.vl ≤ bitsAt (getStream s f.b).word.toNat 0 27 ∧
       misaligned ((activeList s f).map (streamElem (getStream s f.b) (stream f s))) = none
     store := fun f s locs => makeStore f.cls.toNat (locs.map (fun e =>
       let c := getV s f.d (vtrType s).width e.at_.idx
       elemStore e (if stream f s = vtrType s then c
         else convertElem 0 (vtrType s) (stream f s) c (rndOf s (vtrRm s) e.at_.idx 0))))
     result := fun f s =>
       { (consumeStream s f.b).t.arch with
         ordinal := ordAfter s (stream f s != vtrType s && ((stream f s).isFloat || (vtrType s).isFloat) && vtrRm s == 5) } },
   { instr := .fnst, opc := 0x82, places := fun f s => (activeList s f).map (fnElemAt (getX s f.a) (getFn s f.d).shape)
     can := fun f s => (getFn s f.d).d ≠ 0 ∧
       (activeList s f ≠ [] → (getX s f.a).toNat % (getFn s f.d).shape.bytes = 0)
     store := fun f s locs => makeStore f.cls.toNat (locs.map (fun e =>
       elemStore e (pack (8 * (getFn s f.d).shape.bytes) (rowOf (getFn s f.d).shape (getFn s f.d).rows e.at_.idx)))) }]

/-- The vector stores and `fnst` complete where their checks pass and every element translates; their bytes, computed
from the active elements' addresses, are read by the thread, and every other byte reads as before (R149, R209 to R219). That a
form which names no register for the block records takes v0's is the model's choice (log entry 38). That the conversion to a
stream's type never flushes is the model's reading (log entry 18). -/
def Obligations.VectorStoresWriteActiveElements : Prop :=
  (∀ r ∈ storeRows, r.Holds) ∧ ∀ f s, Able 0xC3 f s → EmptyStreamAccess (.vst f) f s

/-- `fnld` completes where the pool has the granules, every element translates and no line fails: each active element of
F[d] takes the coefficients in memory, and every byte of memory is left (R149). -/
def Obligations.FunctionLoadReadsCoefficients : Prop :=
  ∀ f s h locs s1, Able 0x81 f s → EpochEnded s → shapeOf (getX s f.b) = some h → h.p ≤ degreeCap h.d →
    poolShort s f.d (h.granules s.t.arch.vl) = false →
    (activeList s f ≠ [] → (getX s f.a).toNat % h.bytes = 0) →
    translateElems (threadSpace s) .load ((activeList s f).map (fnElemAt (getX s f.a) h)) s = (locs, none, s1) →
    elemsDataError s1 locs = none →
    ∃ t, exec (.fnld f) s = .next t ∧ OnlyThread s t ∧ SameBytes s t ∧ OnlyStrip s t ∧
      SameButAhead t.t.arch { s.t.arch with pc := s.t.arch.pc + 4, vp := nextVp s, fn := t.t.arch.fn } ∧
      FnWritten s t f.d (fnHolding s h (fun i =>
        if i ∈ activeList s f then
          ((locs.map (fun e => (e.at_.idx, unpack (8 * h.bytes) h.count
            (viewValue (fillLines (locs.flatMap (fun e => e.locs)) s1) e.locs)))).lookup i).getD h.zeros
        else keptFn (getFn s f.d) (getFn s f.d).rows h (getFn s f.d).shape.tm h.vm i))

/-- A bitmask-sparse load completes where its record passes the checks of R57: each active element takes its stored value,
or zero where the mask has none (R55, R57, R253). -/
def Sys2Proof.Machine.SparseLoadExpandsARecord : Prop :=
  ∀ f s hl s1 bl s2, Able 0xC2 f s → EpochEnded s → f.mod.toNat % 4 = 0 → accessEnc 0xC2 f s = 12 →
    accessIllegal 0xC2 12 f s = false → accessConfig 0xC2 12 f s = false → s.t.arch.vl ≠ 0 →
    packedBase 12 f s % 16 = 0 →
    translateRun (threadSpace s) .load 16 (packedBase 12 f s) s = .ok (hl, s1) →
    sparseHeaderOk (vtrType s) s.t.arch.vl (hl.map (viewByte s1)) = true →
    let n := fieldAt (hl.map (viewByte s1)) 0 4 - 16
    translateRun (threadSpace s) .load n (packedBase 12 f s + 16) s1 = .ok (bl, s2) →
    let mb := ceilDiv s.t.arch.vl 8
    let mask := viewValue s2 (bl.take mb)
    popCount s.t.arch.vl mask = fieldAt (hl.map (viewByte s1)) 8 4 → mask < 2 ^ s.t.arch.vl →
    let es := sparseElems (vtrType s).width mask (bl.drop mb) (packedBase 12 f s + 16 + mb) (activeList s f)
    dataError s2 (packedBase 12 f s) (hl ++ bl.take mb) = none → elemsDataError s2 es = none →
    let s3 := fillLines (hl ++ bl.take mb ++ es.flatMap (fun e => e.locs)) s2
    let vals := sparseValues (vtrType s).width mask (viewValue s3 (bl.drop mb)) s.t.arch.vl 0 0
    ∃ t, exec (.vld f) s = .next t ∧ OnlyReads s t ∧
      SameButAhead t.t.arch { s.t.arch with
        pc := s.t.arch.pc + 4, vp := nextVp s
        v := putElems (regbits s) f.d.toNat (vtrType s).width ((activeList s f).map (fun i => (i, vals.getD i 0)))
          s.t.arch.v }

/-- A bitmask-sparse store completes where its record fits the reserved space: the record's bytes are stored from the
base on, and no other byte (R55, R56, R215, R252). -/
def Sys2Proof.Machine.SparseStoreWritesARecord : Prop :=
  ∀ f s locs s1, Able 0xC3 f s → f.mod.toNat % 4 = 0 → accessEnc 0xC3 f s = 12 → accessIllegal 0xC3 12 f s = false →
    accessConfig 0xC3 12 f s = false → s.t.arch.vl ≠ 0 → packedBase 12 f s % 16 = 0 →
    let bytes := sparseRecord (vtrType s) ((List.range s.t.arch.vl).map (getV s f.d (vtrType s).width))
    let rsv := 16 * bitsAt s.t.arch.mfr.toNat 16 16
    translateRun (threadSpace s) .store rsv (packedBase 12 f s) s = .ok (locs, s1) → bytes.length ≤ rsv →
    let st := makeStore f.cls.toNat
      [(locs.zip bytes).map (fun p => ({ loc := p.1, val := p.2, mask := 0xFF } : StoreByte))]
    (storeLines st).length ≤ 1024 →
    ∃ t, exec (.vst f) s = .next t ∧ OnlyBuffered s t st ∧
      SameButAhead t.t.arch { s.t.arch with pc := s.t.arch.pc + 4, vp := nextVp s }

/-- Bitmask-sparse loads and stores of records (R55 to R57, R252, R253). That a load reads no line which holds only values of
inactive elements is the model's choice (log entry 39). -/
def Obligations.SparseRecordsAreReadAndWritten : Prop :=
  Sys2Proof.Machine.SparseLoadExpandsARecord ∧ Sys2Proof.Machine.SparseStoreWritesARecord

/-- Where `mfrset` and `sbind` fault (R223, R225): Configuration for a value that mfr may not hold and for a format that is no
stream's, Misaligned access for a base or a stride that is not aligned; as every rollback does, each brings the checkpoint's
registers back, mfr and the streams with them, discards what is read ahead (R8, R85, R227), and changes nothing outside the
thread. The three are legal on vector threads only; `sbind` and `sfree` are N-S with
op6 0x07 and 0x08, and name streams 0 to 7. -/
def Sys2Proof.Machine.FormatAndStreamFaults : Prop :=
  let faults (i : Instr) (s : State) (code : W64) : Prop := ∃ t, exec i s = .next t ∧ t.t.tcause = code ∧ t.t.telem = 0 ∧
    t.t.arch = { s.t.ckpt with
      pc := t.t.arch.pc, vp := t.t.arch.vp, sm := s.t.ckpt.sm.map (fun m => { m with ahead := [] }) } ∧
    t = { s with t := t.t }
  (∀ f s, Able 0xC6 f s → mfrOk (getX s f.a) = false → faults (.mfrset f) s 0x10) ∧
  (∀ f s, Able 0xC7 f s → streamFmtOk (bitsAt (getX s f.b).toNat 27 5) = false → faults (.sbind f) s 0x10) ∧
  (∀ f s ty, Able 0xC7 f s → streamFmtOk (bitsAt (getX s f.b).toNat 27 5) = true →
    ElemTy.ofCode (bitsAt (getX s f.b).toNat 27 5) = some ty →
    ((getX s f.a).toNat % (ty.width / 8) ≠ 0 ∨
      signedOf 32 (bitsAt (getX s f.b).toNat 32 32) % ((ty.width / 8 : Nat) : Int) ≠ 0) → faults (.sbind f) s 0x06) ∧
  (∀ n, streamFmtOk n = true ↔ n ∈ [1, 2, 3, 4, 5, 6, 11, 12, 13, 14, 16, 17, 18, 19]) ∧
  (∀ i ∈ [Instr.mfrset, .sbind, .sfree], ∀ f s, running s = true → s.t.slot = 8 → s.t.arch.vp = none → faults (i f) s 0x01) ∧
  (∀ d a b : Field, d.toNat < 8 → a.toNat < 64 → b.toNat < 64 →
    decodeWord (BitVec.ofNat 11 0x6C7 ++ d ++ a ++ b) = some (.sbind { d := d, a := a, b := b }) ∧
    decodeWord (BitVec.ofNat 11 0x6C8 ++ d ++ (0 : BitVec 14)) = some (.sfree { d := d }))

/-- `mfrset` completes where its value is one that mfr may hold: X[d] takes the old mfr; `sbind` binds a stream at its
first element where the format is a stream's and base and stride are aligned; `sfree` unbinds it (R211, R223, R225). They
fault where their rules say. -/
def Obligations.FormatAndStreamRegistersAreSet : Prop :=
  Sys2Proof.Machine.FormatAndStreamFaults ∧
  (∀ f s, Able 0xC6 f s → mfrOk (getX s f.a) = true →
    ∃ t, exec (.mfrset f) s = .next t ∧ OnlyArch s t ∧
      t.t.arch = { s.t.arch with
        pc := s.t.arch.pc + 4, vp := nextVp s, x := t.t.arch.x, mfr := getX s f.a } ∧
      ∀ n : Field, getX t n = if n = f.d ∧ n ≠ 0 ∧ n.toNat < 64 then s.t.arch.mfr else getX s n) ∧
  (∀ f s ty, Able 0xC7 f s → streamFmtOk (bitsAt (getX s f.b).toNat 27 5) = true →
    ElemTy.ofCode (bitsAt (getX s f.b).toNat 27 5) = some ty → (getX s f.a).toNat % (ty.width / 8) = 0 →
    signedOf 32 (bitsAt (getX s f.b).toNat 32 32) % ((ty.width / 8 : Nat) : Int) = 0 →
    ∃ t, exec (.sbind f) s = .next t ∧ OnlyArch s t ∧
      t.t.arch = { s.t.arch with pc := s.t.arch.pc + 4, vp := nextVp s, sm := t.t.arch.sm } ∧
      ∀ n : Field, getStream t n =
        if n = f.d ∧ n.toNat < 8 then { base := getX s f.a, word := getX s f.b, cons := 0, ahead := [] }
        else getStream s n) ∧
  (∀ f s, Able 0xC8 f s →
    ∃ t, exec (.sfree f) s = .next t ∧ OnlyArch s t ∧
      t.t.arch = { s.t.arch with pc := s.t.arch.pc + 4, vp := nextVp s, sm := t.t.arch.sm } ∧
      ∀ n : Field, getStream t n = if n = f.d ∧ n.toNat < 8 then .unbound else getStream s n)

/-! ### Configuration and divergence, 0x40 to 0x42, 0x7B and 0x7C -/

/-- The grant of `setvl` (R90): the request where it fits, else a whole number of blocks, never above the maximum. -/
def Sys2Proof.Machine.GrantIsWholeBlocks : Prop :=
  ∀ n m B, grantOf n m B ≤ m ∧ grantOf n m B ≤ n ∧ (n ≤ m → grantOf n m B = n) ∧
    (m < n → B ≤ m → B ∣ grantOf n m B ∧ m - B < grantOf n m B ∨ B = 0) ∧ (m < n → m < B → grantOf n m B = m)

/-- `setvl` and `setvli` complete unless a pending lane reduction does not fit the function pool (R90, R92): the strip
commits, a pending lane share is taken, vl and X[d] take the grant, the strip sequence number advances, the rounding
ordinal restarts, and the checkpoint of the new strip is taken after that. -/
def Sys2Proof.Machine.SetvlOpensAStrip : Prop :=
  ∀ f s, Able 0x40 f s → poolTooSmall s = false →
    let s1 := takeShare s
    let n := if f.imm then (imm14 f).toNat else (getX s f.a).toNat
    let vl := grantOf n (vlmax s1) (vtrBlock s)
    ∀ i ∈ [Instr.setvl f, .setvli f], ∃ t, exec i s = .next t ∧
      ClosedStrip s { t with t := { t.t with own := s.t.own, pend := s.t.pend, lanes := s.t.lanes } } 0 ∧
      t.t.own = s1.t.own ∧ t.t.pend = s1.t.pend ∧ t.t.lanes = s1.t.lanes ∧
      t.t.arch = { s1.t.arch with
        pc := s.t.arch.pc + 4, vp := nextVp s, x := t.t.arch.x, vl := vl
        stripSeq := (s.t.arch.stripSeq + 1) % 2 ^ 64, ordinal := 0 } ∧
      ∀ r : Field, getX t r = if r = f.d ∧ r ≠ 0 ∧ r.toNat < 64 then BitVec.ofNat 64 vl else getX s r

/-- `setvl` grants whole blocks and opens a strip (R90, R92). What a `setvl` makes of predicate bits above a lowered vlmax is
the model's choice (log entry 37). -/
def Obligations.SetvlOpensAStrip : Prop :=
  Sys2Proof.Machine.GrantIsWholeBlocks ∧ Sys2Proof.Machine.SetvlOpensAStrip

/-- `vcfg` completes for 8, 16, 32 and 64 registers: it commits the strip, sets vnreg, zeroes every vector register and
predicate, empties the function registers, and sets vl to 0. For any other count it raises Configuration with the strip
committed and vnreg unchanged (R95, R129). -/
def Sys2Proof.Machine.VcfgClearsTheVectorFile : Prop :=
  ∀ f s, Able 0x41 f s →
    let n := (getX s f.a).toNat
    (n ∈ [8, 16, 32, 64] → ∃ t, exec (.vcfg f) s = .next t ∧ ClosedStrip s t 1 ∧
      t.t.arch = { s.t.arch with
        pc := s.t.arch.pc + 4, vp := nextVp s, vnreg := n, v := List.replicate n 0, p := Vector.replicate 96 0
        fn := Vector.replicate 16 .empty, vl := 0 }) ∧
    (n ∉ [8, 16, 32, 64] → ∃ t, exec (.vcfg f) s = .next t ∧ TrappedAfterCommit s t (.of 0x10 0 0))

/-- `vsetty` completes: vtr takes its fields, vl is held to the new vlmax, and nothing else changes, the strip included
(R31, R96). -/
def Sys2Proof.Machine.VsettySetsVtr : Prop :=
  ∀ f s ty, Able 0x42 f s → ElemTy.ofCode f.d.toNat = some ty →
    let w := vtrWord ty (f.a.toNat % 8) (f.a.toNat / 8 % 4) (f.b.toNat % 8) (f.b.toNat / 8 % 4)
    ∃ t, exec (.vsetty f) s = .next t ∧ OnlyArch s t ∧
      t.t.arch = { s.t.arch with
        pc := s.t.arch.pc + 4, vp := nextVp s, vtr := w
        vl := min s.t.arch.vl (vlmax (withArch s { s.t.arch with vtr := w })) }

/-- `vcfg` and `vsetty` (R31, R95, R96, R129). That `vsetty` keeps predicate bits above a lowered vlmax is the model's choice
(log entry 37). -/
def Obligations.VectorConfigurationIsSet : Prop :=
  Sys2Proof.Machine.VcfgClearsTheVectorFile ∧ Sys2Proof.Machine.VsettySetsVtr

/-- The group that runs next, of the running elements of a divergence (R125): all of them whose VPC is one VPC. It is the
group of the lowest running element, or, behind a group whose lowest element was `above`, the one whose lowest element is the
least above that; where there is none, the choice wraps. The PC is the group's VPC and its instruction count starts at 0.
Where no element runs, the thread goes on at JOINPC without divergence. -/
def Sys2Proof.Machine.GroupChosen (a b : Arch) (v : Vp) (above : Option Nat) : Prop :=
  let pc (i : Nat) : W64 := v.vpc.getD i 0
  let running (i : Nat) : Prop := i < v.vpc.length ∧ bitsAt v.run i 1 = 1
  let lowest (i : Nat) : Prop := running i ∧ ∀ j, running j → pc j = pc i → i ≤ j
  ((∀ i, ¬ running i) → b = { a with pc := v.joinPc, vp := none }) ∧
  ((∃ i, running i) → ∃ i group, lowest i ∧
    (match above with
      | none => ∀ j, running j → i ≤ j
      | some k => (k < i ∧ ∀ j, lowest j → k < j → i ≤ j) ∨ ((∀ j, lowest j → j ≤ k) ∧ ∀ j, running j → i ≤ j)) ∧
    (∀ j, bitsAt group j 1 = 1 ↔ running j ∧ pc j = pc i) ∧
    b = { a with pc := pc i, vp := some { v with group := group, count := 0 } })

/-- `vpfetch` completes where the active targets are aligned: each active element runs at its target, and the group of the
lowest starts; with no active element the thread goes on (R124, R125). -/
def Sys2Proof.Machine.VpfetchStartsAGroup : Prop :=
  ∀ f s, Able 0x7B f s → fmtFits f s = true → spanOk s f.a (elemType f s).width = true → (elemType f s).isFloat = false →
    let target (i : Nat) : W64 := getX s f.b + BitVec.ofInt 64 (signedOf (elemType f s).width (getV s f.a (elemType f s).width i))
    (∀ i ∈ activeList s f, (target i).toNat % 4 = 0) →
    ∃ t run, exec (.vpfetch f) s = .next t ∧ OnlyArch s t ∧
      (∀ i, bitsAt run i 1 = if i ∈ activeList s f then 1 else 0) ∧
      GroupChosen s.t.arch t.t.arch
        { vpc := (List.range s.t.arch.vl).map (fun i => if i ∈ activeList s f then target i else 0), run := run
          joinPc := s.t.arch.pc + 4, group := 0, count := 0 } none ∧
      (activeList s f = [] → t.t.arch = { s.t.arch with pc := s.t.arch.pc + 4, vp := none })

/-- `vpjoin` completes in a block: the elements of the running group run no more, the VPCs are as before, and the next group
starts, or the thread goes on at JOINPC (R125, R128). -/
def Sys2Proof.Machine.VpjoinRetiresTheGroup : Prop :=
  ∀ f s v, Able 0x7C f s → s.t.arch.vp = some v →
    ∃ t run, exec (.vpjoin f) s = .next t ∧ OnlyArch s t ∧
      (∀ i, bitsAt run i 1 = if i < v.vpc.length ∧ bitsAt v.run i 1 = 1 ∧ bitsAt v.group i 1 = 0 then 1 else 0) ∧
      GroupChosen s.t.arch t.t.arch { v with run := run } (some (lowestVp v)) ∧
      (run = 0 → t.t.arch = { s.t.arch with pc := v.joinPc, vp := none })

/-- A `bp` of a vector thread in a block completes: each element of the running group moves by its own predicate bit, taken
under .any and .all where it is 1 and under .none where it is 0; the VPCs of the other elements, RUN and JOINPC are as before.
A group whose elements all move to one address goes on there; one that splits stops, and the next is chosen (R107, R125,
R126). -/
def Sys2Proof.Machine.BpMovesEachElement : Prop :=
  ∀ f s v, Able 0x31 f s → s.t.slot ≠ 8 → s.t.arch.vp = some v → f.mod.toNat % 4 ≠ 3 →
    let off21 : W64 := (f.a ++ f.b ++ f.c ++ (0 : BitVec 2) : BitVec 23).signExtend 64
    let taken (i : Nat) : Bool :=
      if f.mod.toNat % 4 = 1 then bitsAt (predBits s f.d.toNat) i 1 == 0 else bitsAt (predBits s f.d.toNat) i 1 == 1
    let next (i : Nat) : W64 := s.t.arch.pc + (if taken i then off21 else 4)
    let inGroup (i : Nat) : Prop := i < v.vpc.length ∧ bitsAt v.group i 1 = 1
    let w : Vp := { v with
      vpc := (List.range v.vpc.length).map (fun i => if bitsAt v.group i 1 = 1 then next i else v.vpc.getD i 0)
      count := v.count + 1 }
    ∃ t, exec (.bp f) s = .next t ∧ OnlyArch s t ∧
      ((∀ i, ¬ inGroup i) → t.t.arch = s.t.arch) ∧
      (∀ i, inGroup i → (∀ j, inGroup j → next j = next i) →
        t.t.arch = { s.t.arch with pc := next i, vp := some w }) ∧
      (∀ i j, inGroup i → inGroup j → next j ≠ next i → GroupChosen s.t.arch t.t.arch w (some (lowestVp v)))

/-- The lowest element of the running group. -/
def Sys2Proof.Machine.LowestVpIsTheLowest : Prop :=
  ∀ v i, i < v.vpc.length → bitsAt v.group i 1 = 1 → (∀ j, j < i → bitsAt v.group j 1 = 0) → lowestVp v = i

/-- Divergence (R107, R124 to R128): `vpfetch` starts the group of the lowest running element, `vpjoin` retires the running
group and starts the next, and a `bp` in a block moves each element of the group by its own bit. Nothing else changes. That
`vpfetch` asks the effective type to be an integer type is the model's reading (log entry 42). -/
def Obligations.DivergenceRunsGroups : Prop :=
  Sys2Proof.Machine.VpfetchStartsAGroup ∧ Sys2Proof.Machine.VpjoinRetiresTheGroup ∧ Sys2Proof.Machine.BpMovesEachElement ∧
    Sys2Proof.Machine.LowestVpIsTheLowest

/-! ### The checks before an instruction -/

/-- An illegal form of any instruction traps before it has any effect, whatever the instruction (R35, R41, R43, R126): a
kind of thread that does not execute its opcode; in a VP block, an opcode that is not of the block's subset; a vector
register at or above vnreg; an operand constant that its entry rejects. tval holds the word, telem the group's lowest
element in a block. The strip rolls back, but at a tile instruction of the MCC thread with a constant that its entry
rejects, which has committed the strip (R162). -/
def Sys2Proof.Machine.IllegalFormsTrapBeforeAnyEffect : Prop :=
  ∀ i opc f s, longOf i = some (opc, f) → running s = true →
    let c : Cause := .of 0x01 s.t.iword (illegalElem s)
    ((opRow? opc = none ∨ (∃ r, opRow? opc = some r ∧ kindOk s r = false) ∨
        (s.t.arch.vp.isSome = true ∧ vpLegal opc f = false)) →
      ∃ t, exec i s = .next t ∧ RolledBack s t c) ∧
    (∀ r, opRow? opc = some r → kindOk s r = true → (s.t.arch.vp.isSome = true → vpLegal opc f = true) →
      (opc = 0xFA → s.t.mode = .super) → vregsOk s r f = false ∨ constsOk opc f = false →
      (s.t.slot = 8 → (opc < 0xA0 ∨ 0xB0 < opc) → ∃ t, exec i s = .next t ∧ RolledBack s t c) ∧
      (s.t.slot = 8 → 0xA0 ≤ opc → opc ≤ 0xB0 → ∃ t, exec i s = .next t ∧ TrappedAfterCommit s t c) ∧
      (s.t.slot ≠ 8 → ∃ t, exec i s = .next t ∧ RolledBack s t c))

/-- `udf` raises Illegal instruction on every thread, whatever its operand (R108). -/
def Sys2Proof.Machine.UdfIsIllegal : Prop :=
  ∀ x s, running s = true → ∃ t, exec (.udf x) s = .next t ∧ RolledBack s t (.of 0x01 s.t.iword (illegalElem s))

/-- Illegal forms and `udf` trap before any effect (R35, R43, R108, R126). The order of the checks, that of the VP block before
that of the mode among them, is the model's choice (log entry 1), and so is that the handler runs outside the block (log
entry 31). -/
def Obligations.IllegalFormsTrapBeforeAnyEffect : Prop :=
  Sys2Proof.Machine.IllegalFormsTrapBeforeAnyEffect ∧ Sys2Proof.Machine.UdfIsIllegal

/-- `tlbinv` in U mode raises Privileged instruction and has no effect (R307). -/
def Sys2Proof.Machine.TlbinvIsPrivileged : Prop :=
  ∀ f s, running s = true → s.t.arch.vp = none → s.t.mode = .user →
    ∃ t, exec (.tlbinv f) s = .next t ∧ RolledBack s t (.of 0x04 s.t.iword 0)

/-! ### Order, waits and AMOs, 0xCD to 0xDA -/

/-- The AMOs and their operations (R246). -/
def Sys2Proof.Machine.amoRows : List (AmoOp × (Form → Instr) × Nat) :=
  [(.add, .amoadd, 0xCD), (.fadd, .amofadd, 0xCE), (.max, .amomax, 0xCF), (.min, .amomin, 0xD0), (.and, .amoand, 0xD1),
   (.or, .amoor, 0xD2), (.swap, .amoswap, 0xD3), (.cas, .amocas, 0xD4), (.fmax, .amofmax, 0xD5)]

/-- An AMO completes where its address is aligned and translates and its line does not fail: after the stores that go
before it, it reads the old value into X[d] and stores the new one over its bytes alone; the strip has committed
(R236, R245 to R247). `s2` is the state in which those stores have performed. -/
def Sys2Proof.Machine.AmosReadAndWriteAtOnce : Prop :=
  ∀ r ∈ amoRows, ∀ f s loc locs s1, Able r.2.2 f s → CanonicalMemory s → EpochEnded s → isDet s = false →
    (getX s f.a).toNat % scalarBytes f = 0 →
    translateElem (openStrip (commit s) 1) (threadSpace s) .amo (getX s f.a).toNat (scalarBytes f) = .ok (loc :: locs, s1) →
    let s2 := performNeeded (beforeAmo (orderOf f == 2) f.cls.toNat (loc :: locs)) s1
    engineError s2 (getX s f.a).toNat (loc :: locs) = none →
    let old := leValue ((loc :: locs).map (rawByte s2))
    let new := amoNew r.1 (8 * scalarBytes f) f.fmt.toNat old ((getX s f.b).toNat % 2 ^ (8 * scalarBytes f))
      ((getX s f.d).toNat % 2 ^ (8 * scalarBytes f))
    ∃ t, exec (r.2.1 f) s = .next t ∧ WroteX s t f.d (extendLoaded f old) ∧
      SameButAhead t.t.arch { s.t.arch with pc := s.t.arch.pc + 4, vp := nextVp s, x := t.t.arch.x } ∧
      t.t.performing = s2.t.performing ∧ t.t.strip = .empty 1 ∧ t.t.ckpt = t.t.arch ∧ SameTraps s t ∧
      ∀ a, rawByte t a =
        if loc ≤ a ∧ a < loc + scalarBytes f then BitVec.ofNat 8 (new / 256 ^ (a - loc)) else rawByte s2 a

/-- Which stores of the thread perform before its AMO (R236, R247): with a release every one; else one of the AMO's class, one
where either class is 15, one with a fence behind it that covers both classes, and one that writes a byte of the AMO's. -/
def Sys2Proof.Machine.StoresBeforeAnAmo : Prop :=
  ∀ release cls locs masks st, beforeAmo release cls locs masks st = true ↔
    release = true ∨ st.cls = cls ∨ st.cls = 15 ∨ cls = 15 ∨ (∃ m ∈ masks, bitsAt m st.cls 1 = 1 ∧ bitsAt m cls 1 = 1) ∨
      ∃ e ∈ st.elems, ∃ w ∈ e, w.loc ∈ locs

/-- In a deterministic launch an AMO completes with the value that its thread sees in X[d], and itself waits in the buffer of
the thread's epoch with its operands; what has committed before stands there too, and no byte that it names changes before
the epoch ends (R82). -/
def Sys2Proof.Machine.DeterministicAmosWait : Prop :=
  ∀ r ∈ amoRows, ∀ f s loc locs s1, Able r.2.2 f s → EpochEnded s → isDet s = true →
    (getX s f.a).toNat % scalarBytes f = 0 →
    translateElem (openStrip (commit s) 1) (threadSpace s) .amo (getX s f.a).toNat (scalarBytes f) = .ok (loc :: locs, s1) →
    let s2 := drain s1
    dataError s2 (getX s f.a).toNat (loc :: locs) = none →
    let w := 8 * scalarBytes f
    ∃ t pins, exec (r.2.1 f) s = .next t ∧
      WroteX s t f.d (extendLoaded f (viewValue (fillLines (loc :: locs) s2) (loc :: locs))) ∧
      SameButAhead t.t.arch { s.t.arch with pc := s.t.arch.pc + 4, vp := nextVp s, x := t.t.arch.x } ∧
      t.t.wcb = s2.t.wcb ++ [(s.t.epoch + 1,
        .amo r.1 loc w f.fmt.toNat ((getX s f.b).toNat % 2 ^ w) ((getX s f.d).toNat % 2 ^ w) pins)] ∧
      t.t.performing = [] ∧ t.t.strip = .empty 1 ∧ t.t.ckpt = t.t.arch ∧ SameTraps s t ∧
      ∀ a, rawByte t a = rawByte s2 a

/-- The AMOs, outside a deterministic launch and in one (R82, R236, R245 to R247). Which earlier stores perform before an AMO is
the model's reading (log entry 12), and so is which epoch a buffered one belongs to (log entry 8). -/
def Obligations.AmosReadAndWriteAtOnce : Prop :=
  Sys2Proof.Machine.AmosReadAndWriteAtOnce ∧ Sys2Proof.Machine.StoresBeforeAnAmo ∧ Sys2Proof.Machine.DeterministicAmosWait

/-- A misaligned AMO raises Misaligned access with the strip committed (R245, R326). -/
def Sys2Proof.Machine.MisalignedAmoTrapsAfterCommit : Prop :=
  ∀ r ∈ amoRows, ∀ f s, Able r.2.2 f s → EpochEnded s → (getX s f.a).toNat % scalarBytes f ≠ 0 →
    ∃ t, exec (r.2.1 f) s = .next t ∧ TrappedAfterCommit s t (.of 0x06 (getX s f.a) 0)

/-- A misaligned scalar load or store rolls the strip back; a misaligned AMO, which closes the strip, traps after its commit
(R217, R245, R326). What a rollback does with a VP block is the model's reading (log entry 31). -/
def Obligations.MisalignedAccessesTrap : Prop :=
  Sys2Proof.Machine.MisalignedScalarAccessTraps ∧ Sys2Proof.Machine.MisalignedAmoTrapsAfterCommit

/-- `fence` completes where its value names classes alone: a release takes its place behind the strip's stores, an acquire
drops what the thread has read ahead and, from die scope on, the lines of its cluster's cache; no byte of memory and no
register changes but the PC (R234, R242, R247). An epoch fence of a deterministic launch commits the strip, ends the
thread's epoch, and drops what it has read ahead (R81). -/
def Sys2Proof.Machine.FencesOrderWithoutEffect : Prop :=
  ∀ f s, Able 0xD6 f s → bitsAt (getX s f.a).toNat 16 48 = 0 →
    ((isDet s = false ∨ scopeOf f < 4) → ∃ t, exec (.fence f) s = .next t ∧ OnlyThread s t ∧ SameBytes s t ∧
      SameButAhead t.t.arch { s.t.arch with pc := s.t.arch.pc + 4, vp := nextVp s } ∧
      t.t = { stepped s.t with arch := t.t.arch, strip := { s.t.strip with items := s.t.strip.items ++
        (if orderOf f ≠ 1 ∧ scopeOf f ≠ 0 then
          [.fence (if bitsAt (getX s f.a).toNat 0 16 = 0 then 0xFFFF else bitsAt (getX s f.a).toNat 0 16)] else []) } } ∧
      t.u.cache = (if orderOf f ≠ 2 ∧ 3 ≤ scopeOf f then [] else s.u.cache) ∧
      (orderOf f ≠ 2 → ∀ r : Field, (getStream t r).ahead = [])) ∧
    (isDet s = true → 4 ≤ scopeOf f → ∃ t, exec (.fence f) s = .next t ∧ t.t.epoch = s.t.epoch + 1 ∧
      (∀ r : Field, (getStream t r).ahead = []) ∧
      SameButAhead t.t.arch { s.t.arch with pc := s.t.arch.pc + 4, vp := nextVp s } ∧
      ClosedDrained s t (rawByte (drain (commit s))))

/-- `stend` commits the strip and completes (R248). Without an order its effects perform later; an acquire or a release
waits for them: in a deterministic launch for the ends of their epochs (R81). -/
def Sys2Proof.Machine.StendCommitsTheStrip : Prop :=
  ∀ f s, Able 0xDA f s →
    let left := (drain (commit s)).t.wcb
    (orderOf f = 0 → ∃ t, exec (.stend f) s = .next t ∧ ClosedStrip s t 1 ∧
      t.t.arch = { s.t.arch with pc := s.t.arch.pc + 4, vp := nextVp s }) ∧
    (orderOf f ≠ 0 → left = [] → ∃ t, exec (.stend f) s = .next t ∧
      SameButAhead t.t.arch { s.t.arch with pc := s.t.arch.pc + 4, vp := nextVp s } ∧
      ClosedDrained s t (rawByte (drain (commit s)))) ∧
    (orderOf f ≠ 0 → left ≠ [] → ∃ t, exec (.stend f) s = .next t ∧ t.t.wait = .performed ∧ t.t.arch = s.t.arch ∧
      t.t.performing = [] ∧ t.t.strip = .empty 1 ∧ t.t.ckpt = s.t.arch ∧ ∀ a, rawByte t a = rawByte (drain (commit s)) a)

/-- `fence` and `stend` (R81, R234, R242, R247, R248). That an ordered `stend` of a deterministic launch waits for the
end of an epoch that the thread has not fenced is the model's reading (log entry 8). -/
def Obligations.FencesAndStripEnds : Prop :=
  Sys2Proof.Machine.FencesOrderWithoutEffect ∧ Sys2Proof.Machine.StendCommitsTheStrip

/-- `waitc` completes at once where no more stores, copies and tile operations are outstanding than it names, and else
commits the strip and waits at its own address; `tlwait` completes where its timeline has reached the value and its
engine context is not suspended, and else commits and waits, or raises the Engine fault again (R176, R233, R249, R250). What
counts of a deterministic launch's buffer is the model's reading (log entry 8), and so is that the fault is of kind A and that a
`chsend` counts as a store (log entry 12). -/
def Obligations.WaitsCompleteOrWait : Prop :=
  (∀ f s, Able 0xD7 f s →
    let v := packedConst f
    let stores := openStores s.t + performingStores s.t
    let copies := openCopies s.t + runningCopies s
    (stores ≤ bitsAt v 4 4 → copies ≤ bitsAt v 8 4 → openTileOps s ≤ bitsAt v 12 4 →
      ∃ t, exec (.waitc f) s = .next t ∧ OnlyReads s t ∧
        SameButAhead t.t.arch { s.t.arch with pc := s.t.arch.pc + 4, vp := nextVp s }) ∧
    (bitsAt v 4 4 < stores ∨ bitsAt v 8 4 < copies ∨ bitsAt v 12 4 < openTileOps s →
      ∃ t, exec (.waitc f) s = .next t ∧
        WaitsAfterCommit s t (.outstanding (bitsAt v 0 4) (bitsAt v 4 4) (bitsAt v 8 4) (bitsAt v 12 4)))) ∧
  (∀ f s, Able 0xD8 f s → (getX s f.a).toNat ≤ timelineValue s f.d.toNat →
    (getX s f.a = 0 ∨ suspendedOn s f.d.toNat = none) →
    ∃ t, exec (.tlwait f) s = .next t ∧ OnlyReads s t ∧
      SameButAhead t.t.arch { s.t.arch with pc := s.t.arch.pc + 4, vp := nextVp s }) ∧
  (∀ f s, Able 0xD8 f s → timelineValue s f.d.toNat < (getX s f.a).toNat → suspendedOn s f.d.toNat = none →
    ∃ t, exec (.tlwait f) s = .next t ∧ WaitsAfterCommit s t (.timeline f.d.toNat (getX s f.a).toNat)) ∧
  (∀ f s x, Able 0xD8 f s → getX s f.a ≠ 0 → suspendedOn s f.d.toNat = some x →
    ∃ t, exec (.tlwait f) s = .next t ∧ Trapped s t .A (suspendCause x) s.t.arch.pc s.t.arch.pc ∧
      t.t.performing = s.t.performing ++ stripEffects s ∧
      t.t.arch = { s.t.arch with pc := s.t.tvec, vp := none } ∧ t = { s with t := t.t })

/-! ### Channels, 0xCA to 0xCC -/

/-- `chsend` completes where the channel is configured, the elements fit the slot, the thread is or becomes its producer,
and a slot is free: it stores the elements into the slot at the thread's own position and, at the slot's end, advances
that position; the channel's published positions move only at commit (R182, R183, R187). -/
def Sys2Proof.Machine.ChannelSendFillsASlot : Prop :=
  ∀ f s, Able 0xCA f s →
    let ch := f.a.toNat
    let c := getChan s ch
    let w := (vtrType s).width
    let o := chanOffset f s
    let last := o + ceilDiv (s.t.arch.vl * w) 8 = c.slotBytes
    let st := makeStore 16 ((activeList s f).map (fun i =>
      elemStore (chanElem c (c.ppos + localSent s.t ch) o w i) (getV s f.d w i)))
    spanOk s f.d w = true → c.scount ≠ 0 → o + ceilDiv (s.t.arch.vl * w) 8 ≤ c.slotBytes → o % 64 = 0 →
    (c.prod = 0xFF ∨ c.prod = s.t.slot) → c.full + localSent s.t ch < c.scount → (storeLines st).length ≤ 1024 → ch < 16 →
    ∃ t, exec (.chsend f) s = .next t ∧ t = { s with t := t.t, u := { s.u with chans := t.u.chans } } ∧ OnlyStrip s t ∧
      SameButAhead t.t.arch { s.t.arch with pc := s.t.arch.pc + 4, vp := nextVp s } ∧
      (∀ a, viewByte t a = overlayElems a st.elems (viewByte s a)) ∧
      (∀ k, getChan t k = if k = ch then { c with prod := s.t.slot } else getChan s k) ∧
      (∀ k, localSent t.t k = localSent s.t k + (if k = ch ∧ last then 1 else 0)) ∧
      (∀ k, localRecvd t.t k = localRecvd s.t k)

/-- `chrecv` completes where a published slot is left for the thread: the active elements of vd take the slot's elements,
and at the slot's end the thread's own position advances; what the thread has read ahead is dropped (R183, R187, R242). -/
def Sys2Proof.Machine.ChannelReceiveReadsASlot : Prop :=
  ∀ f s, Able 0xCB f s →
    let ch := f.a.toNat
    let c := getChan s ch
    let w := (vtrType s).width
    let o := chanOffset f s
    let last := o + ceilDiv (s.t.arch.vl * w) 8 = c.slotBytes
    spanOk s f.d w = true → c.scount ≠ 0 → o + ceilDiv (s.t.arch.vl * w) 8 ≤ c.slotBytes → o % 64 = 0 →
    (c.cons = 0xFF ∨ c.cons = s.t.slot) → localRecvd s.t ch < c.full → ch < 16 →
    ∃ t, exec (.chrecv f) s = .next t ∧ t = { s with t := t.t, u := { s.u with chans := t.u.chans } } ∧
      t.t = { stepped s.t with arch := t.t.arch, strip := { s.t.strip with recvd := t.t.strip.recvd } } ∧
      t.t.arch = { dropAhead s.t.arch with
        pc := s.t.arch.pc + 4, vp := nextVp s
        v := putElems (regbits s) f.d.toNat w ((activeList s f).map (fun i =>
          (i, loadElem s (chanElem c (c.cpos + localRecvd s.t ch) o w i)))) s.t.arch.v } ∧
      (∀ a, viewByte t a = viewByte s a) ∧
      (∀ k, getChan t k = if k = ch then { c with cons := s.t.slot } else getChan s k) ∧
      (∀ k, localRecvd t.t k = localRecvd s.t k + (if k = ch ∧ last then 1 else 0))

/-- `chsend` without a free slot, and `chrecv` without a published one that is left for the thread, wait with the strip
committed; the thread has become the channel's producer or consumer (R183, R187, R276). -/
def Sys2Proof.Machine.ChannelInstructionsWait : Prop :=
  ∀ f s,
    let ch := f.a.toNat
    let c := getChan s ch
    let w := (vtrType s).width
    let o := chanOffset f s
    spanOk s f.d w = true → c.scount ≠ 0 → o + ceilDiv (s.t.arch.vl * w) 8 ≤ c.slotBytes → o % 64 = 0 → ch < 16 →
    (Able 0xCA f s → (c.prod = 0xFF ∨ c.prod = s.t.slot) → c.scount ≤ c.full + localSent s.t ch →
      ∃ t, exec (.chsend f) s = .next t ∧ WaitsAfterCommit { s with u := t.u } t (.chanFree ch) ∧
        t.u = { s.u with chans := t.u.chans } ∧
        ∀ k, getChan t k = if k = ch then { c with prod := s.t.slot } else getChan s k) ∧
    (Able 0xCB f s → (c.cons = 0xFF ∨ c.cons = s.t.slot) → c.full ≤ localRecvd s.t ch →
      ∃ t, exec (.chrecv f) s = .next t ∧ WaitsAfterCommit { s with u := t.u } t (.chanFull ch) ∧
        t.u = { s.u with chans := t.u.chans } ∧
        ∀ k, getChan t k = if k = ch then { c with cons := s.t.slot } else getChan s k)

/-- `chcfg` completes where the channel is idle: with a slot count of zero it becomes unconfigured, else it takes its
place, its counts start at zero and its region reads zero; the strip has committed and performed (R182, R186). -/
def Sys2Proof.Machine.ChannelConfigurationZeroesTheRegion : Prop :=
  ∀ f s, Able 0xCC f s → f.d.toNat < 16 →
    let s1 := drain (commit s)
    let a := (getX s f.a).toNat
    let n := bitsAt (getX s f.b).toNat 0 7
    let k := bitsAt (getX s f.b).toNat 16 9
    chanBusy s1 f.d.toNat = false → bitsAt (getX s f.b).toNat 7 9 = 0 → bitsAt (getX s f.b).toNat 25 39 = 0 →
    (n = 0 → ∃ t, exec (.chcfg f) s = .next t ∧ ClosedDrained s t (rawByte s1) ∧
      t.t.arch = { s.t.arch with pc := s.t.arch.pc + 4, vp := nextVp s } ∧
      ∀ i, getChan t i = if i = f.d.toNat then .unconfigured else getChan s1 i) ∧
    (n ≠ 0 → n ≤ 64 → k ≠ 0 → k ≤ 256 → a % 256 = 0 → a + n * k * 256 ≤ cspBytes s →
      ∃ t, exec (.chcfg f) s = .next t ∧
        ClosedDrained s t (fun x =>
          if cspBase + a ≤ x ∧ x < cspBase + a + n * k * 256 then 0 else rawByte s1 x) ∧
        SameButAhead t.t.arch { s.t.arch with pc := s.t.arch.pc + 4, vp := nextVp s } ∧
        ∀ i, getChan t i =
          if i = f.d.toNat then
            { base := a / 256, scount := n, ssize := k, full := 0, prod := 0xFF, cons := 0xFF, ppos := 0, cpos := 0
              claimedIn := 0, claimedOut := 0 }
          else getChan s1 i)

/-- `chsend`, `chrecv` and `chcfg` (R182 to R187): they move slots, wait, and configure. That a thread counts the advances of
its own strip is the model's reading (log entry 34), and so is that an advance in the buffer of a deterministic launch keeps
its channel busy (log entry 8). -/
def Obligations.ChannelInstructionsMoveSlots : Prop :=
  Sys2Proof.Machine.ChannelSendFillsASlot ∧ Sys2Proof.Machine.ChannelReceiveReadsASlot ∧
    Sys2Proof.Machine.ChannelInstructionsWait ∧ Sys2Proof.Machine.ChannelConfigurationZeroesTheRegion

/-! ### Control registers, traps and the dictionary, 0xF0 to 0xFB and D words -/

/-- The instructions that read a table or a register of the machine into X (R38, R250, R308, R323). -/
def Sys2Proof.Machine.machineReadRows : List XRow :=
  [{ instr := .sysrd, opc := 0xF3
     can := fun f s => crAssigned (s.t.slot == 8) (crNumber f s) = true ∧
       (s.t.mode = .user → crHidden (crNumber f s) = false)
     value := fun f s => crRead s (crNumber f s) },
   { instr := .ccread, opc := 0xE4, can := fun f s => (parseHandle (getX s f.a).toNat).isSome = true
     value := fun f s => handleWord (myPart s) (myJobId s) (getX s f.a).toNat },
   { instr := .tlread, opc := 0xD9, value := fun f s => BitVec.ofNat 64 (timelineValue s f.a.toNat) },
   { instr := .dread, opc := 0xF2, value := fun f s =>
       s.t.dict[(getX s f.a).toNat % 256]'(Nat.mod_lt _ (by decide)) }]

/-- `sysrd` of a register that the thread may read, `ccread` of a handle, `tlread` and `dread` complete, write X[d], and
change nothing else (R38, R250, R282, R308, R323). -/
def Sys2Proof.Machine.MachineReadsWriteOneRegister : Prop := ∀ r ∈ machineReadRows, r.Holds

/-- The instructions that read vectors, predicates, function headers, control registers, counters, timelines and the
dictionary into X complete, write X[d], and change nothing else (R115, R123, R160, R282, R308, R323). -/
def Obligations.ReadsIntoScalarRegistersWriteOneRegister : Prop :=
  Sys2Proof.Machine.ScalarResultsComeFromVectorsAndFunctions ∧ Sys2Proof.Machine.MachineReadsWriteOneRegister

/-- The three writes of a control register: the value that each forms from the old one and X[d], and whether X[d] takes
the old value (R323). -/
def Sys2Proof.Machine.controlWrites : List ((Form → Instr) × Nat × (W64 → W64 → W64) × Bool × Bool) :=
  [(.syswr, 0xF4, fun _ v => v, false, false), (.sysset, 0xF5, fun o v => o ||| v, false, true),
   (.sysclr, 0xF6, fun o v => o &&& ~~~v, true, true)]

/-- A write of a control register completes where the thread has the register, the mode may write it, no reserved bit is
written, and the value is not excluded (R308, R323): RO bits keep their values, a W1C bit is hit by a 1, and a register
from 0x200 on, and rpr, close the strip first. A write to 0x300 or above leaves a journal entry (R345). -/
def Sys2Proof.Machine.ControlRegisterWritesComplete : Prop :=
  ∀ r ∈ controlWrites, ∀ f s, Able r.2.1 f s →
    let n := crNumber f s
    let old := crRead s n
    let raw := (r.2.2.1 old (getX s f.d)).toNat
    let m := crMasks n
    let hit := if r.2.2.2.1 then 0 else Nat.land (getX s f.d).toNat m.2.1
    let new := BitVec.ofNat 64 (Nat.land raw m.1 + Nat.land old.toNat (allBits - m.1 - m.2.1))
    let closes := n = 0x020 ∨ 0x200 ≤ n
    let s1 := crWrite n new hit (if closes then commit s else s)
    let s2 := if r.2.2.2.2 then setX s1 f.d old else s1
    let s3 := if 0x300 ≤ n then journalWrite n old s2 else s2
    crAssigned (s.t.slot == 8) n = true → (s.t.mode = .user → crGuarded n = false) → Nat.land raw m.2.2 = 0 →
    crExcluded s n new = false → (n = 0x30D → hit = 0) →
    ∃ t, exec (r.1 f) s = .next t ∧ t = complete (if closes then closeDone s3 else nextPc s3)

/-- The plain registers of a thread: a number, and which kind of thread has it. -/
def Sys2Proof.Machine.plainRegisters : List Nat :=
  [0x002, 0x003, 0x004, 0x005, 0x006, 0x021, 0x100, 0x101, 0x106, 0x107]

/-- A plain register of a thread holds what `syswr` has written where its map makes the bits writable, and its old bits
elsewhere; no other plain register, no scalar register and no byte of memory changes (R308, R323). -/
def Sys2Proof.Machine.PlainRegistersHoldWhatIsWritten : Prop :=
  ∀ f s, Able 0xF4 f s → crNumber f s ∈ plainRegisters → crAssigned (s.t.slot == 8) (crNumber f s) = true →
    (s.t.mode = .user → crNumber f s < 0x100) →
    let n := crNumber f s
    let v := getX s f.d
    let new := BitVec.ofNat 64 (Nat.land v.toNat (crMasks n).1 + Nat.land (crRead s n).toNat (allBits - (crMasks n).1))
    Nat.land v.toNat (crMasks n).2.2 = 0 → crExcluded s n new = false →
    ∃ t, exec (.syswr f) s = .next t ∧ crRead t n = new ∧ t.t.arch.pc = s.t.arch.pc + 4 ∧
      (∀ k ∈ plainRegisters, k ≠ n → crRead t k = crRead s k) ∧ (∀ r : Field, getX t r = getX s r) ∧
      t = { s with t := t.t } ∧ t.t.strip = s.t.strip ∧ t.t.mode = s.t.mode

/-- The writes of control registers complete, and a plain register holds what has been written (R308, R323). Which writes of
FABCFG set an LHPORTS bit and what ends with JOBPAR's VALID are the model's readings (log entries 23, 40). -/
def Obligations.ControlRegisterWritesComplete : Prop :=
  Sys2Proof.Machine.ControlRegisterWritesComplete ∧ Sys2Proof.Machine.PlainRegistersHoldWhatIsWritten

/-- A thread in U mode that reads or writes a register it may not takes Privileged instruction; a number that its kind of
thread does not have is Illegal (R308). -/
def Sys2Proof.Machine.ControlRegistersArePrivileged : Prop :=
  (∀ f s, Able 0xF3 f s → crAssigned (s.t.slot == 8) (crNumber f s) = true → s.t.mode = .user →
    crHidden (crNumber f s) = true → ∃ t, exec (.sysrd f) s = .next t ∧ RolledBack s t (.of 0x04 s.t.iword 0)) ∧
  (∀ r ∈ controlWrites, ∀ f s, Able r.2.1 f s → crAssigned (s.t.slot == 8) (crNumber f s) = true → s.t.mode = .user →
    crGuarded (crNumber f s) = true → ∃ t, exec (r.1 f) s = .next t ∧ RolledBack s t (.of 0x04 s.t.iword 0)) ∧
  (∀ r ∈ ((.sysrd, 0xF3) : (Form → Instr) × Nat) :: controlWrites.map (fun r => (r.1, r.2.1)), ∀ f s, Able r.2 f s →
    crAssigned (s.t.slot == 8) (crNumber f s) = false →
    ∃ t, exec (r.1 f) s = .next t ∧ RolledBack s t (.of 0x01 s.t.iword (illegalElem s)))

/-- What U mode may not do raises Privileged instruction and has no effect (R307, R308). What a rollback does with a VP block
is the model's reading (log entry 31). -/
def Obligations.PrivilegedAccessesTrap : Prop :=
  Sys2Proof.Machine.ControlRegistersArePrivileged ∧ Sys2Proof.Machine.TlbinvIsPrivileged

/-- `svc` commits the strip and enters the handler with cause 0x18, X[a] in tval, and the next instruction's address in
spc (R324, R329). -/
def Sys2Proof.Machine.SvcEntersTheHandler : Prop :=
  ∀ f s, Able 0xF7 f s →
    ∃ t, exec (.svc f) s = .next t ∧
      Trapped s t .N (.of 0x18 (getX s f.a) 0) (s.t.arch.pc + 4) s.t.arch.pc ∧
      t.t.performing = s.t.performing ++ stripEffects s ∧
      t.t.arch = { s.t.arch with pc := s.t.tvec, vp := none } ∧ t = { s with t := t.t }

/-- `trap` enters the handler with cause 0x16 and X[b] in tval where X[a] is not zero, with the strip rolled back, and
goes on where it is zero (R334). -/
def Sys2Proof.Machine.TrapTestsItsOperand : Prop :=
  ∀ f s, Able 0xF8 f s →
    (getX s f.a ≠ 0 → ∃ t, exec (.trap f) s = .next t ∧ RolledBack s t (.of 0x16 (getX s f.b) 0)) ∧
    (getX s f.a = 0 → ∃ t, exec (.trap f) s = .next t ∧ OnlyArch s t ∧
      t.t.arch = { s.t.arch with pc := s.t.arch.pc + 4, vp := nextVp s })

/-- `brkpt` commits the strip and enters the handler with cause 0x17 and its constant in tval, at its own address
(R336). -/
def Sys2Proof.Machine.BrkptTrapsAfterCommit : Prop :=
  ∀ f s, Able 0xFB f s →
    ∃ t, exec (.brkpt f) s = .next t ∧ TrappedAfterCommit s t (.of 0x17 (BitVec.ofNat 64 (packedConst f)) 0)

/-- `svc`, `trap` and `brkpt` (R324, R334, R336). What a rollback does with a VP block is the model's reading (log entry 31).
-/
def Obligations.SupervisorCallsAndTrapsEnterTheHandler : Prop :=
  Sys2Proof.Machine.SvcEntersTheHandler ∧ Sys2Proof.Machine.TrapTestsItsOperand ∧ Sys2Proof.Machine.BrkptTrapsAfterCommit

/-- `tret` in S mode with tstat.CHK zero returns: the strip commits, the PC takes spc, the mode takes tstat.PM, a strip
opens there, and tstat.STEP arms a step; a step that was armed is due; nothing else changes. A VP block that trap entry put
aside goes on at spc (R127; what nested handlers put aside is the model's reading, log entry 31). With tstat.CHK not zero
it escalates Privileged state; in U mode it raises Privileged instruction after its commit (R335). -/
def Sys2Proof.Machine.TretReturnsFromTheHandler : Prop :=
  ∀ f s, Able 0xF9 f s →
    (s.t.mode = .super → bitsAt s.t.tstat.toNat 16 48 = 0 →
      ∃ t, exec (.tret f) s = .next t ∧
        t = { s with t := { s.t with
          mode := if s.t.tstat.getLsbD 0 then .super else .user
          arch := t.t.arch, ckpt := t.t.arch, strip := .empty 5, stripAge := 0, noRollback := false, wait := .none
          performing := s.t.performing ++ stripEffects s, stepArmed := s.t.tstat.getLsbD 2
          stepDue := s.t.stepArmed || s.t.stepDue
          vpHeld := (popHeld (if s.t.tstat.getLsbD 0 then .super else .user) s.t.vpHeld).2 } } ∧
        t.t.arch = { s.t.arch with
          pc := s.t.spc
          vp := (popHeld (if s.t.tstat.getLsbD 0 then .super else .user) s.t.vpHeld).1.map (fun v => groupPc v s.t.spc) }) ∧
    (s.t.mode = .super → bitsAt s.t.tstat.toNat 16 48 ≠ 0 →
      ∃ t, exec (.tret f) s = .next t ∧ t = complete (escalate 0x05 s.t.tpc (commit s))) ∧
    (s.t.mode = .user → ∃ t, exec (.tret f) s = .next t ∧ TrappedAfterCommit s t (.of 0x04 s.t.iword 0))

/-- A handler that returns undoes trap entry (R329, R335): after `svc`, a `tret` with the trap registers as entry left
them comes back in the mode of before, at the next instruction, with every scalar, vector, predicate and function register
as it was. -/
def Sys2Proof.Machine.SvcAndTretRoundTrip : Prop :=
  ∀ f g s t, Able 0xF7 f s → exec (.svc f) s = .next t → Able 0xF9 g t → bitsAt s.t.tstat.toNat 16 48 = 0 →
    ∃ r, exec (.tret g) t = .next r ∧ r.t.mode = s.t.mode ∧ r.t.arch.pc = s.t.arch.pc + 4 ∧
      r.t.arch.x = s.t.arch.x ∧ r.t.arch.v = s.t.arch.v ∧ r.t.arch.p = s.t.arch.p ∧ r.t.arch.fn = s.t.arch.fn

/-- A VP block that a fault leaves goes on (R126, R127, R329, R335): after a `trap`, which no block may execute, a `tret` at
once comes back to the block as the checkpoint has it, with its running group at the checkpoint's PC, and the handler has
run outside it. -/
def Sys2Proof.Machine.TrapInABlockComesBack : Prop :=
  ∀ f g s t v, running s = true → s.t.arch.vp = some v → s.t.ckpt.vp = some v →
    exec (.trap f) s = .next t → Able 0xF9 g t → bitsAt s.t.tstat.toNat 16 48 = 0 →
    t.t.arch.vp = none ∧ ∃ r, exec (.tret g) t = .next r ∧ r.t.mode = s.t.mode ∧ r.t.arch.pc = s.t.ckpt.pc ∧
      r.t.arch.vp = some (groupPc v s.t.ckpt.pc)

/-- `tret` returns from a handler (R127, R329, R335). -/
def Obligations.TretReturnsFromTheHandler : Prop :=
  Sys2Proof.Machine.TretReturnsFromTheHandler ∧ Sys2Proof.Machine.SvcAndTretRoundTrip ∧
    Sys2Proof.Machine.TrapInABlockComesBack

/-- A translation that a `tlbinv` with operands `a` and `b` names, in words (R325). -/
def Sys2Proof.Machine.IsNamed (a b : W64) (asid level vpn : Nat) : Prop :=
  bitsAt b.toNat 16 2 = 2 ∨
    (asid = bitsAt b.toNat 0 16 ∧ (bitsAt b.toNat 16 2 = 1 ∨ vpn = a.toNat / 2 ^ (16 + 10 * level)))

/-- Which buffered stores hold a `tlbinv` up whose removal has number `n` (R210, R325): those of another context, committed or
in the open strip of a context that is not saved, and those of complete units, that pin a named translation taken before it. -/
def Sys2Proof.Machine.TlbinvWaitsForPins : Prop :=
  (∀ a b n p, Pin.named a b n p = true ↔ IsNamed a b p.asid p.level p.vpn ∧ p.age < n) ∧
  ∀ a b n s, pinsClear a b n s = true ↔
    (∀ u ∈ allUnits s, u.part = s.u.part → ∀ t ∈ u.threads, ¬ (u.uid = s.u.uid ∧ t.slot = s.t.slot) →
      committedPins a b n t = false ∧ (u.cluster ≠ none → t.away = false → stripPins a b n t = false)) ∧
    ∀ l ∈ (myPart s).launches, ∀ x ∈ l.leftover, bufferPins a b n x.2 = false

/-- `tlbinv` in S mode completes once no buffered store pins a translation that it removed: no cached translation that it names
is left in the partition, and the others are; registers and bytes of memory but the DISCARD flag of frames that are in DRAM
are as they were. Else it waits at its own address with its entries gone. -/
def Sys2Proof.Machine.TlbinvRemovesWhatItNames : Prop :=
  ∀ f s, Able 0xFA f s → s.t.mode = .super →
    let a := getX s f.a
    let b := getX s f.b
    let kind := bitsAt b.toNat 16 2
    let s1 := openStrip (drain (commit s)) 1
    let n := (myPart s1).removals + 1
    let s2 := markSaved a b n s.u.part (dropAheads s.u.part (dropNamed a b s1))
    let gone (t : State) : Prop :=
      ∀ e, e ∈ (getPart t s.u.part).tlb ↔ e ∈ (getPart s1 s.u.part).tlb ∧ ¬ IsNamed a b e.asid e.level e.vpn
    ((∀ x y k, s.t.wait ≠ .pins x y k) →
      (kind = 3 ∨ bitsAt b.toNat 18 46 ≠ 0 → ∃ t, exec (.tlbinv f) s = .next t ∧ RolledBack s t (.of 0x10 0 0)) ∧
      (kind = 0 → bitsAt b.toNat 18 46 = 0 → a.toNat % 2 ^ 16 ≠ 0 →
        ∃ t, exec (.tlbinv f) s = .next t ∧ RolledBack s t (.of 0x06 a 0)) ∧
      (kind ≠ 3 → bitsAt b.toNat 18 46 = 0 → (kind = 0 → a.toNat % 2 ^ 16 = 0) → s.u.part < 4 →
        (s1.t.wcb ≠ [] → ∃ t, exec (.tlbinv f) s = .next t ∧ t.t.wait = .performed ∧ t.t.arch = s.t.arch) ∧
        (s1.t.wcb = [] → pinsClear a b n s2 = true →
          ∃ t, exec (.tlbinv f) s = .next t ∧ t.t.arch.pc = s.t.arch.pc + 4 ∧ (∀ r : Field, getX t r = getX s r) ∧
            SameTraps s t ∧ t.t.performing = [] ∧ gone t ∧
            (CanonicalMemory s → kind ≠ 2 →
              ∀ x, (∀ i e, (getPart s1 s.u.part).ctx[i]? = some e → x ≠ (freshEntry s1 s.u.part i e).frame + 6) →
                rawByte t x = rawByte s1 x)) ∧
        (s1.t.wcb = [] → pinsClear a b n s2 = false →
          ∃ t, exec (.tlbinv f) s = .next t ∧ t.t.wait = .pins a b n ∧ t.t.arch = dropAhead s.t.arch ∧ t.t.mode = .super ∧
            gone t))) ∧
    (∀ x y k, s.t.wait = .pins x y k →
      let s3 := markSaved a b k s.u.part s
      (pinsClear a b k s3 = true → ∃ t, exec (.tlbinv f) s = .next t ∧ t.t.arch.pc = s.t.arch.pc + 4 ∧ t.t.wait = .none ∧
        (∀ r : Field, getX t r = getX s r) ∧ SameTraps s t) ∧
      (pinsClear a b k s3 = false → ∃ t, exec (.tlbinv f) s = .next t ∧ t.t.arch = s.t.arch ∧ t.t.wait = .pins a b k))

/-- `tlbinv` in S mode removes the translations that it names and completes once no buffered store pins one of them (R210, R314,
R325); else it waits at its own address, and completes once the pins are gone. A kind of 3 or a reserved bit is Configuration, a
misaligned page of kind 0 Misaligned access. What a rollback does with a VP block is the model's reading (log entry 31), and so
is which buffered stores it waits for (log entry 8) and that it drops what streams have read ahead (log entry 15). -/
def Obligations.TlbinvRemovesWhatItNames : Prop :=
  Sys2Proof.Machine.TlbinvRemovesWhatItNames ∧ Sys2Proof.Machine.TlbinvWaitsForPins

/-- `dload` completes where its address is aligned and the image is readable: the table takes each valid long form of the
image, and the marker in place of each other; the load is pending until `dsync`. `dsync` completes where the image passes
the measurement check, and else raises Measurement mismatch (R32, R36, R37, R316). -/
def Obligations.DictionaryLoadsAndSynchronises : Prop :=
  (∀ f s image s1, Able 0xF0 f s → EpochEnded s → (getX s f.a).toNat % 2048 = 0 →
    readImage (getX s f.a).toNat (openStrip (drain (commit s)) 1) = .ok (image, s1) →
    ∃ t, exec (.dload f) s = .next t ∧ ClosedDrained s t (rawByte (drain (commit s))) ∧
      SameButAhead t.t.arch { s.t.arch with pc := s.t.arch.pc + 4, vp := nextVp s } ∧ t.t.dictLoading = true ∧
      t.t.image = some image ∧ ∀ i (h : i < 256), t.t.dict[i] =
        (let w := BitVec.ofNat 64 (fieldAt image (8 * i) 8); if validLong w then w else undefinedEntry)) ∧
  (∀ f s, Able 0xF1 f s →
    (measured (drain (commit s)) = true → ∃ t, exec (.dsync f) s = .next t ∧
      ClosedDrained s t (rawByte (drain (commit s))) ∧ t.t.dictLoading = false ∧ t.t.dict = s.t.dict ∧
      t.t.arch = { s.t.arch with pc := s.t.arch.pc + 4, vp := nextVp s }) ∧
    (measured (drain (commit s)) = false → ∃ t, exec (.dsync f) s = .next t ∧
      Trapped s t .C (.of 0x1A 0 0) s.t.arch.pc s.t.arch.pc ∧ t.t.dictLoading = s.t.dictLoading))

/-- A D word (R35): while a load is pending it raises Dictionary not synchronised, and on an undefined entry Undefined
dictionary entry; else it executes as the native word of its expanded form would, but that every fault which it causes reports
that form in tval. An entry that expands to an integer instruction completes with that instruction's result, a misaligned
scalar load reports its form, and an entry that expands to no instruction is Illegal instruction with the expansion in tval.
That a trap puts a VP block aside is the model's reading (log entry 31), and so is that Engine fault, Breakpoint and
Supervisor call are no faults of the word (log entry 36), and that an expansion which is no instruction traps after the commit
where its opcode is in the tile range on an MCC thread (log entry 1). -/
def Obligations.DictionaryWordsExecuteTheirExpansion : Prop :=
  ∀ e a b c s, running s = true →
    (s.t.dictLoading = true → ∃ t, exec (.dictionaryWord e a b c) s = .next t ∧
      RolledBack s t (.of 0x03 (dictEntry s e) 0)) ∧
    (s.t.dictLoading = false → dictEntry s e = undefinedEntry → ∃ t, exec (.dictionaryWord e a b c) s = .next t ∧
      RolledBack s t (.of 0x02 (dictEntry s e) 0)) ∧
    (s.t.dictLoading = false → dictEntry s e ≠ undefinedEntry →
      let v := expandEntry (dictEntry s e) a b c
      (∀ i, decodeLong v = some i →
        (∀ t, exec i (withWord s v) = .next t →
          let faults := t.t.vpHeld.length = s.t.vpHeld.length + 1 ∧ bitsAt t.t.tcause.toNat 0 8 ∉ [0x12, 0x17, 0x18]
          (faults → exec (.dictionaryWord e a b c) s = .next { t with t := { t.t with tval := v } }) ∧
          (¬ faults → exec (.dictionaryWord e a b c) s = .next t)) ∧
        ((∀ t, exec i (withWord s v) ≠ .next t) → exec (.dictionaryWord e a b c) s = exec i (withWord s v))) ∧
      (∀ f, decodeLong v = some (.ld f) → checkForm 0xC0 f (withWord s v) = none → EpochEnded s →
        (scalarAddr f s).toNat % scalarBytes f ≠ 0 →
        ∃ t, exec (.dictionaryWord e a b c) s = .next t ∧ RolledBack (withWord s v) t (.of 0x06 v 0)) ∧
      (decodeLong v = none →
        let tile := 0xA0 ≤ longOpc v ∧ longOpc v ≤ 0xB0 ∧ s.t.slot = 8
        let c0 : Cause := .of 0x01 v (illegalElem s)
        (tile → ∃ t, exec (.dictionaryWord e a b c) s = .next t ∧ TrappedAfterCommit s t c0) ∧
        (¬ tile → ∃ t, exec (.dictionaryWord e a b c) s = .next t ∧ RolledBack s t c0)) ∧
      (∀ r ∈ integerRows, ∀ f, decodeLong v = some (r.instr f) → checkForm r.opc f (withWord s v) = none →
        ∃ t, exec (.dictionaryWord e a b c) s = .next t ∧ OnlyArch (withWord s v) t ∧
          OnlyX s t (s.t.arch.pc + 4) s.t.arch.ordinal ∧ WroteX s t f.d (r.value f s)))

/-! ### Tiles, 0xA0 to 0xB0 -/

/-- `stl` completes: it commits the strip, X[d], X[a] and X[b] take the grants of M, N and K, tgrant takes them together,
and a strip opens with the next sequence number (R169, R189). -/
def Obligations.StlGrantsTileSizes : Prop :=
  ∀ f s, Able 0xA0 f s →
    let cap := match f.mod.toNat % 4 with
      | 2 => 512
      | 3 => 1024
      | _ => 256
    let gm := min (getX s f.d).toNat 128
    let gn := min (getX s f.a).toNat 128
    let gk := min (getX s f.b).toNat cap
    ∃ t, exec (.stl f) s = .next t ∧ ClosedStrip s t 0 ∧
      t.t.arch = { s.t.arch with
        pc := s.t.arch.pc + 4, vp := nextVp s, x := t.t.arch.x
        tgrant := BitVec.ofNat 64 (gm + gn * 2 ^ 8 + gk * 2 ^ 16 + (if (getX s f.b).toNat ≤ cap then 2 ^ 27 else 0))
        stripSeq := (s.t.arch.stripSeq + 1) % 2 ^ 64, ordinal := 0 } ∧
      ∀ n : Field, getX t n =
        if n = 0 ∨ 64 ≤ n.toNat then getX s n
        else if n = f.b then BitVec.ofNat 64 gk
        else if n = f.a then BitVec.ofNat 64 gn
        else if n = f.d then BitVec.ofNat 64 gm
        else getX s n

/-- The tile instructions that issue an operation (R173, R178, R188, R190 to R199). -/
def Sys2Proof.Machine.tileIssueRows : List TRow :=
  let hd (s : State) (r : Field) : TileHdr := getHdr s r.toNat
  let op (opc : Nat) (h : Form → State → List Opnd → TileHdr) (f : Form) (s : State) (os : List Opnd) : TileOp :=
    newOp s opc f (h f s os)
  let o1 (os : List Opnd) : Bool := ((os[0]?).map (fun o => o.isInt)).getD false
  let o2 (os : List Opnd) : Bool := ((os[1]?).map (fun o => o.isInt)).getD false
  let plain (i : Form → Instr) (opc : Nat) (h : Form → State → TileHdr) (can : Form → State → Prop) (src : Form → Bool) :
      TRow :=
    { instr := i, opc := opc, op := op opc (fun f s _ => h f s), hdr := fun f s _ => some (h f s), source := src
      can := fun f s _ => can f s }
  let fromA (f : Form) : Bool := f.d == f.a
  let fromAB (f : Form) : Bool := f.d == f.a || f.d == f.b
  let wide (f : Form) (s : State) : Nat := widerType (hd s f.a).ftype (hd s f.b).ftype
  let ranked (i : Form → Instr) (opc : Nat) (m n r : Form → State → Nat) (can : Form → State → Prop) : TRow :=
    plain i opc
      (fun f s => if r f s ≤ rankCap s then factorHdr (m f s) (n f s) (wide f s) (r f s) else denseHdr (m f s) (n f s) false)
      (fun f s => can f s ∧ (r f s ≤ rankCap s ∨ rankPolicy s = 1)) fromAB
  let ldType (f : Form) (s : State) : Nat :=
    if f.fmt ≠ 0 then f.fmt.toNat else if (hd s f.d).kind = 2 then (hd s f.d).ftype else 2
  let ldRank (f : Form) (s : State) : Nat := (getX s f.b).toNat
  let ldHdr (f : Form) (s : State) : TileHdr :=
    if rankCap s < ldRank f s then denseHdr (grantM s) (grantN s) false
    else factorHdr (grantM s) (grantN s) (ldType f s) (ldRank f s)
  let mmHdr (s : State) (os : List Opnd) : TileHdr := denseHdr (grantM s) (grantN s) (o1 os && o2 os)
  let mmOp (f : Form) (s : State) (os : List Opnd) : TileOp := newOp s 0xA7 f (mmHdr s os)
  let mmKeeps (f : Form) : Bool := f.mod.toNat % 2 == 0
  [plain .tcfg 0xA1 (fun f s => (hdrOfWord (getX s f.a)).getD .empty) (fun f s => (hdrOfWord (getX s f.a)).isSome = true)
     (fun _ => false),
   plain .tzero 0xA2 (fun f s => { hd s f.d with rank := 0 }) (fun _ _ => True) (fun _ => false),
   { instr := .tld, opc := 0xA3, descs := fun f s => [{ va := getX s f.a, rows := grantM s, cols := grantN s }]
     op := op 0xA3 (fun _ s os => denseHdr (grantM s) (grantN s) (o1 os))
     hdr := fun f s os =>
       let h := denseHdr (grantM s) (grantN s) (o1 os)
       if (newOp s 0xA3 f h).still then none else some h },
   { instr := .tldf, opc := 0xA4
     descs := fun f s => [{ va := getX s f.a, rows := grantM s, cols := ldRank f s },
       { va := getX s f.a + 32, rows := grantN s, cols := ldRank f s }]
     can := fun f s _ => ldRank f s ≤ 64 ∧ (ldRank f s ≤ rankCap s ∨ rankPolicy s = 1)
     op := fun f s _ => { newOp s 0xA4 f (ldHdr f s) with fmt := ldType f s }
     hdr := fun f s _ =>
       if { newOp s 0xA4 f (ldHdr f s) with fmt := ldType f s }.still then none else some (ldHdr f s) },
   { instr := .tst, opc := 0xA5
     descs := fun f s => [{ va := getX s f.a, width := some 64, rows := (hd s f.d).m, cols := (hd s f.d).n }]
     can := fun f s _ => (hd s f.d).kind = 1, op := op 0xA5 (fun f s _ => hd s f.d), hdr := fun _ _ _ => none },
   { instr := .tstf, opc := 0xA6
     descs := fun f s =>
       let w := some (outWidth f.fmt.toNat (hd s f.d).ftype)
       [{ va := getX s f.a, width := w, rows := (hd s f.d).m, cols := (hd s f.d).rank },
        { va := getX s f.a + 32, width := w, rows := (hd s f.d).n, cols := (hd s f.d).rank }]
     can := fun f s _ => (hd s f.d).kind = 2, op := op 0xA6 (fun f s _ => hd s f.d), hdr := fun _ _ _ => none },
   { instr := .tmm, opc := 0xA7
     descs := fun f s => [{ va := getX s f.a, rows := grantM s, cols := grantK s },
       { va := getX s f.b, isB := true, rows := grantK s, cols := grantN s }]
     can := fun f s os =>
       let td := hd s f.d
       td.kind ≠ 2 ∧
         (td.kind = 1 → mmKeeps f = true → td.m = grantM s ∧ td.n = grantN s ∧ td.int64 = (o1 os && o2 os)) ∧
         ∀ a b, os = [a, b] → tmmBad s a b = false
     op := fun f s os =>
       if (mmOp f s os).still ∧ mmKeeps f = false then
         { mmOp f s os with hdr := if grantM s = 0 ∨ grantN s = 0 then .empty else mmHdr s os }
       else mmOp f s os
     hdr := fun f s os =>
       if (mmOp f s os).still then
         if mmKeeps f then none else some (if grantM s = 0 ∨ grantN s = 0 then .empty else mmHdr s os)
       else some (mmHdr s os) },
   ranked .tlmm 0xA8 (fun f s => (hd s f.a).m) (fun f s => (hd s f.b).n)
     (fun f s => min (hd s f.a).rank (hd s f.b).rank)
     (fun f s => (hd s f.a).kind = 2 ∧ (hd s f.b).kind = 2 ∧ (hd s f.a).n = (hd s f.b).m),
   ranked .tadd 0xA9 (fun f s => (hd s f.a).m) (fun f s => (hd s f.a).n)
     (fun f s => (hd s f.a).rank + (hd s f.b).rank)
     (fun f s => (hd s f.a).kind = 2 ∧ (hd s f.b).kind = 2 ∧ (hd s f.a).m = (hd s f.b).m ∧ (hd s f.a).n = (hd s f.b).n),
   plain .tadd 0xA9 (fun f s => hd s f.a)
     (fun f s => (hd s f.a).kind = 1 ∧ (hd s f.b).kind = 1 ∧ (hd s f.a).m = (hd s f.b).m ∧ (hd s f.a).n = (hd s f.b).n ∧
       (hd s f.a).int64 = (hd s f.b).int64) fromAB,
   plain .tdense 0xAB (fun f s => denseHdr (hd s f.a).m (hd s f.a).n ((hd s f.a).kind == 1 && (hd s f.a).int64))
     (fun f s => (hd s f.a).kind ≠ 0) fromA,
   plain .tscale 0xAD (fun f s => hd s f.a)
     (fun f s => (hd s f.a).kind ≠ 0 ∧ ¬((hd s f.a).kind = 1 ∧ (hd s f.a).int64 = true)) fromA,
   { instr := .tcvt, opc := 0xAE
     descs := fun f s => [{ va := getX s f.a, width := some (outWidth f.fmt.toNat (accType (hd s f.d)))
                            rows := (hd s f.d).m, cols := (hd s f.d).n }]
     can := fun f s _ => (hd s f.d).kind = 1 ∧ bitsAt (getX s f.b).toNat 35 29 = 0 ∧ bitsAt (getX s f.b).toNat 32 3 ≤ 5
     op := fun f s _ => { newOp s 0xAE f (hd s f.d) with rnd := bitsAt (getX s f.b).toNat 32 3 }
     hdr := fun _ _ _ => none, counts := fun f s => bitsAt (getX s f.b).toNat 32 3 == 5 }]

/-- The tile instructions that issue complete where their operands, descriptors and channels pass their checks, fewer than
32 operations are outstanding, the pool has the granules, and the rank is within tmode.RCAP or policy 1 makes the result
dense (R162 to R174, R178, R188 to R199). How `tldf` lays out its operands and other corners of descriptors are the model's
readings (log entry 17). -/
def Obligations.TileInstructionsIssueOneOperation : Prop := ∀ r ∈ tileIssueRows, r.Holds

/-- The tile instructions that the thread waits for: recompression, compression, and the rank policy 2 (R164, R178 to R180,
R195 to R197). -/
def Sys2Proof.Machine.tileSyncRows : List SyncRow :=
  let hd (s : State) (r : Field) : TileHdr := getHdr s r.toNat
  let body (s : State) (r : Field) : TileBody := getTile s r.toNat
  let fromAB (f : Form) : Bool := f.d == f.a || f.d == f.b
  let over2 (i : Form → Instr) (opc : Nat) (m n r : Form → State → Nat) (x : Form → State → Factors)
      (can : Form → State → Prop) : SyncRow :=
    let res (f : Form) (s : State) : TileBody :=
      recompressTile s (m f s) (n f s) (widerType (hd s f.a).ftype (hd s f.b).ftype) (x f s)
    { instr := i, opc := opc, result := res, source := fromAB
      can := fun f s => can f s ∧ EpochEnded s ∧ rankCap s < r f s ∧ rankPolicy s ≠ 0 ∧ rankPolicy s ≠ 1 ∧
        (res f s).hdr.rank ≤ rankCap s }
  let compressed (f : Form) (s : State) : Factors :=
    compress (factorFmt (getX s f.b).toNat) (hd s f.a).m (hd s f.a).n
      (rowsOf (hd s f.a).n (hd s f.a).m ((body s f.a).acc.map (fun c => rnd64 (accValue (hd s f.a) c)))) (truncMode s)
  [{ instr := .trecomp, opc := 0xAA, can := fun f s => (hd s f.a).kind = 2, source := fun f => f.d == f.a
     result := fun f s => recompressTile s (hd s f.a).m (hd s f.a).n (hd s f.a).ftype
       { u := (body s f.a).us, v := (body s f.a).vs, rank := (hd s f.a).rank } },
   { instr := .tcomp, opc := 0xAC, source := fun f => f.d == f.a
     can := fun f s => (hd s f.a).kind = 1 ∧ 1 ≤ (getX s f.b).toNat ∧ (getX s f.b).toNat ≤ 3 ∧
       ((compressed f s).rank ≤ rankCap s ∨ rankPolicy s = 1)
     result := fun f s =>
       if (compressed f s).rank ≤ rankCap s then factorTile (hd s f.a).m (hd s f.a).n (getX s f.b).toNat (compressed f s)
       else body s f.a },
   over2 .tlmm 0xA8 (fun f s => (hd s f.a).m) (fun f s => (hd s f.b).n) (fun f s => min (hd s f.a).rank (hd s f.b).rank)
     (fun f s => lowRankFactors (body s f.a) (body s f.b))
     (fun f s => (hd s f.a).kind = 2 ∧ (hd s f.b).kind = 2 ∧ (hd s f.a).n = (hd s f.b).m),
   over2 .tadd 0xA9 (fun f s => (hd s f.a).m) (fun f s => (hd s f.a).n) (fun f s => (hd s f.a).rank + (hd s f.b).rank)
     (fun f s => sumFactors (body s f.a) (body s f.b))
     (fun f s => (hd s f.a).kind = 2 ∧ (hd s f.b).kind = 2 ∧ (hd s f.a).m = (hd s f.b).m ∧ (hd s f.a).n = (hd s f.b).n)]

/-- The synchronous tile instructions complete once the engine is idle and the thread's prior stores have performed, which their
issue releases, and write their result to td; until those have, the thread waits (R164, R165, R178 to R180, R197).
That it waits in a deterministic launch for the ends of the stores' epochs is the model's reading (log entry 8). -/
def Obligations.SynchronousTileInstructionsWriteTheirResult : Prop := ∀ r ∈ tileSyncRows, r.Holds

/-- `trank` completes once no operation that writes its tile is outstanding: X[d] takes the header; `tsync` completes once
no operation is outstanding, and else waits on timeline 15 with the strip committed (R200). -/
def Obligations.TileReadsWaitForTheEngine : Prop :=
  (∀ f s, Able 0xAF f s → s.u.tsusp = none → lastWriter s f.a.toNat = none →
    ∃ t, exec (.trank f) s = .next t ∧ ClosedStrip s t 1 ∧ WroteX s t f.d (getHdr s f.a.toNat).word ∧
      t.t.arch = { s.t.arch with pc := s.t.arch.pc + 4, vp := nextVp s, x := t.t.arch.x }) ∧
  (∀ f s, Able 0xB0 f s → s.u.tsusp = none → s.u.tl15Issued ≤ s.u.tl15 →
    ∃ t, exec (.tsync f) s = .next t ∧ ClosedStrip s t 1 ∧
      SameButAhead t.t.arch { s.t.arch with pc := s.t.arch.pc + 4, vp := nextVp s }) ∧
  (∀ f s, Able 0xB0 f s → s.u.tsusp = none → s.u.tl15 < s.u.tl15Issued →
    ∃ t, exec (.tsync f) s = .next t ∧ t.t.arch = s.t.arch ∧ t.t.wait = .timeline 15 s.u.tl15Issued ∧
      t.t.performing = s.t.performing ++ stripEffects s ∧ t = { s with t := t.t })

/-! ### Engine commands: copies, collectives and packets, 0xC9, 0xE7 and 0xE8 -/

/-- What each command reads, and the command that it adds to the strip (R230, R232, R286, R302). `s1` is the state in
which its record has been read. -/
def Sys2Proof.Machine.commandRows : List ((Form → Instr) × Nat × (Form → State → State → Cmd → Prop)) :=
  [(.copy, 0xC9, fun f s s1 c => ∃ db sb sa, (getX s f.a).toNat % 64 = 0 ∧ (getX s f.b).toNat % 64 = 0 ∧
      readRecord s (getX s f.a).toNat 64 = .ok (db, sa) ∧ readRecord sa (getX s f.b).toNat 64 = .ok (sb, s1) ∧
      (tensorOf sb).reason true = none ∧ (tensorOf db).reason false = none ∧
      shapesDiffer (tensorOf db) (tensorOf sb) = false ∧
      (hullsMeet (tensorOf db) (tensorOf sb) = true → sameShape (tensorOf db) (tensorOf sb) = true) ∧
      c = .copy f.d.toNat db sb f.cls.toNat),
   (.coll, 0xE7, fun f s s1 c => ∃ desc, (getX s f.a).toNat % 64 = 0 ∧
      readRecord s (getX s f.a).toNat 64 = .ok (desc, s1) ∧ collBad (myJob s1) (myDie s1) desc = false ∧
      c = .coll (f.d.toNat - 16) desc (myDie s1)),
   (.xsend, 0xE8, fun f s s1 c => ∃ rec_, (getX s f.a).toNat % 64 = 0 ∧
      readRecord s (getX s f.a).toNat 128 = .ok (rec_, s1) ∧
      recordReason s1 s1.u.part (myJobId s1) rec_ false false = none ∧ childDepth s1 ≤ (myJob s1).depthLimit ∧
      (getX s f.b).toNat ∈ (myJob s1).ranks ∧
      c = .xsend (getX s f.b).toNat { job := myJobId s1, src := (myJob s1).rank, depth := childDepth s1, bytes := rec_ })]

/-- A copy, a collective or a packet completes where its records pass their checks: the command joins the strip, which a
seventeenth command closes first; it issues at commit, and no byte of memory changes before (R8, R230, R232, R237, R239,
R286, R302). -/
def Sys2Proof.Machine.CommandsJoinTheStrip : Prop :=
  ∀ r ∈ commandRows, ∀ f s s1 c, Able r.2.1 f s → EpochEnded s → r.2.2 f s s1 c →
    ∃ t, exec (r.1 f) s = .next t ∧ OnlyThread s t ∧ OnlyStrip s t ∧ SameBytes s t ∧
      SameButAhead t.t.arch { s.t.arch with pc := s.t.arch.pc + 4, vp := nextVp s } ∧
      (s.t.strip.cmds.length < 16 → t.t.strip = { s.t.strip with cmds := s.t.strip.cmds ++ [c] } ∧
        t.t.performing = s.t.performing) ∧
      (16 ≤ s.t.strip.cmds.length → t.t.strip = { Strip.empty 3 with cmds := [c] } ∧
        t.t.performing = s.t.performing ++ stripEffects s)

/-- Copies on one timeline take their numbers as their strips commit, one after the other, behind every copy that a thread of
the unit has committed there before, issued or not (R232). -/
def Sys2Proof.Machine.CopiesAreNumberedByTheirCommits : Prop :=
  ∀ s tl,
    let onTl (p : Pending) : Option Nat := match p with
      | .cmd n c => if c.onTimeline tl then some n else none
      | _ => none
    let first := s.u.tlIssued.toList.getD tl 0 + ((unitThreads s).map (fun t =>
      (t.performing.filterMap onTl).length + (t.wcb.filter (fun e => match e.2 with
        | .cmd _ c => c.onTimeline tl
        | _ => false)).length)).sum + 1
    (commit s).t.performing.filterMap onTl = s.t.performing.filterMap onTl ++
      (List.range (s.t.strip.cmds.filter (Cmd.onTimeline tl)).length).map (fun k => first + k)

/-- A copy whose records fail a check traps before any effect, with the strip rolled back (R229, R231, R232): Misaligned access
of a record's address; Shape fault with the reason above the record's address, of the source first and then of the
destination; reason 5, with the destination's address, where their shapes differ; Copy overlap, with that address too, where
their hulls meet and the records do not agree. `s1` is the state in which both have been read. -/
def Sys2Proof.Machine.CopiesAreRefused : Prop :=
  ∀ f s, Able 0xC9 f s → EpochEnded s →
    let va := getX s f.a
    let vb := getX s f.b
    let reason (r : Nat) (at_ : W64) : Cause := .of 0x0C (BitVec.ofNat 64 (r * 2 ^ 56 + at_.toNat % 2 ^ 56)) 0
    (va.toNat % 64 ≠ 0 → ∃ t, exec (.copy f) s = .next t ∧ RolledBack s t (.of 0x06 va 0)) ∧
    (va.toNat % 64 = 0 → vb.toNat % 64 ≠ 0 → ∃ t, exec (.copy f) s = .next t ∧ RolledBack s t (.of 0x06 vb 0)) ∧
    (∀ db sb sa s1, va.toNat % 64 = 0 → vb.toNat % 64 = 0 →
      readRecord s va.toNat 64 = .ok (db, sa) → readRecord sa vb.toNat 64 = .ok (sb, s1) →
      let refused (c : Cause) : Prop := ∃ t, exec (.copy f) s = .next t ∧ RolledBack s1 t c ∧ SameBytes s t
      let dst := tensorOf db
      let src := tensorOf sb
      (∀ r, src.reason true = some r → refused (reason r vb)) ∧
      (∀ r, src.reason true = none → dst.reason false = some r → refused (reason r va)) ∧
      (src.reason true = none → dst.reason false = none → shapesDiffer dst src = true → refused (reason 5 va)) ∧
      (src.reason true = none → dst.reason false = none → shapesDiffer dst src = false → hullsMeet dst src = true →
        sameShape dst src = false → refused (.of 0x0D va 0)))

/-- Copies, collectives and packets complete where their records pass their checks, a copy is numbered by the commit of its
strip, and one whose records fail a check is refused (R8, R229 to R232, R237, R239, R286, R302). Corners of the records' checks
are the model's readings (log entries 9, 10, 13); so is that X[a] is looked at before X[b] where both are misaligned (log entry
9), that a copy of a deterministic launch waits for its number in the buffer of its epoch (log entry 8), and what a rollback
does with a VP block (log entry 31). That a collective belongs to the die on which it was executed is its choice (log entry
46). -/
def Obligations.EngineCommandsWaitInTheStrip : Prop :=
  Sys2Proof.Machine.CommandsJoinTheStrip ∧ Sys2Proof.Machine.CopiesAreNumberedByTheirCommits ∧
    Sys2Proof.Machine.CopiesAreRefused

/-! ### Launches, joins and the ends of threads, 0xE0 to 0xE9 -/

/-- `bar` (R279): the last live thread of the unit to arrive completes the generation and goes on; another waits at its own
address; a thread whose generation has completed goes on. -/
def Obligations.BarReleasesWhenAllHaveArrived : Prop :=
  ∀ f s, Able 0xE0 f s → s.t.slot < 16 → (∀ r ∈ s.u.threads, r.slot ≠ s.t.slot) →
    let bytes := rawByte (if orderOf f = 1 then s else drain (commit s))
    ((∀ g, s.t.wait ≠ .bar g) → (∀ r ∈ s.u.threads, r.live = true → r.slot ∈ s.u.arrived) →
      ∃ t, exec (.bar f) s = .next t ∧ t.u.barGen = s.u.barGen + 1 ∧ t.u.arrived = [] ∧ t.u.threads = s.u.threads ∧
        SameButAhead t.t.arch { s.t.arch with pc := s.t.arch.pc + 4, vp := nextVp s } ∧ SameTraps s t ∧
        t.t.strip = .empty 1 ∧ t.t.wait = .none ∧ ∀ a, rawByte t a = bytes a) ∧
    ((∀ g, s.t.wait ≠ .bar g) → (∃ r ∈ s.u.threads, r.live = true ∧ r.slot ∉ s.u.arrived) →
      ∃ t, exec (.bar f) s = .next t ∧ t.t.wait = .bar s.u.barGen ∧ t.u.arrived = s.u.arrived ++ [s.t.slot] ∧
        t.t.arch = s.t.arch ∧ ∀ a, rawByte t a = bytes a) ∧
    (∀ g, s.t.wait = .bar g → s.u.barGen ≠ g → ∃ t, exec (.bar f) s = .next t ∧ t.t.wait = .none ∧
      SameButAhead t.t.arch { s.t.arch with pc := s.t.arch.pc + 4, vp := nextVp s } ∧ SameBytes s t)

/-- The two launch instructions: whether each returns a status word in place of a wait (R280). -/
def Sys2Proof.Machine.launchRows : List ((Form → Instr) × Bool) := [(.launch, false), (.launchNb, true)]

/-- A Launch fault is taken after the commit, its reason above a value (R263, R326); no byte of memory has changed. -/
def Sys2Proof.Machine.LaunchFaulted (s t : State) (reason : Nat) (v : W64) : Prop :=
  Trapped s t .C (.of 0x13 (BitVec.ofNat 64 (reason * 2 ^ 56 + v.toNat % 2 ^ 56)) 0) s.t.arch.pc s.t.arch.pc ∧
    t.t.performing = s.t.performing ++ stripEffects s ∧
    SameButAhead t.t.arch { s.t.arch with pc := s.t.tvec, vp := none } ∧ SameBytes s t

/-- `launch` and `launch.nb` complete where the record passes its checks and quota and pool have room: the thread's commits
perform, the launch is accepted as one of the thread's job, and X[d] takes its handle (R263, R280). In a deterministic launch
the acceptance waits for the ends of the epochs of the stores that it releases (R81, R242). Without room,
`launch.nb` completes with the status, and `launch` waits unless its own launches hold the quota; a launch that waited is
accepted with the record as it was read. A record that a check refuses, and for `launch` the depth limit, is a Launch fault;
`launch.nb` at the depth limit returns 3. -/
def Sys2Proof.Machine.LaunchesAreAcceptedOrWait : Prop :=
  ∀ r ∈ launchRows, ∀ f s, Able 0xE1 f s → EpochEnded s →
    let va := getX s f.a
    let accepts (rec_ : List Byte) (s1 : State) : Prop :=
      let s2 := drain s1
      let a := acceptLaunch s.u.part (myJobId s1) rec_ (myCreator s2) s2
      (s2.t.wcb = [] → ∃ t, exec (r.1 f) s = .next t ∧ t = complete (closeDone (setX a.2 f.d (BitVec.ofNat 64 a.1)))) ∧
      (s2.t.wcb ≠ [] → ∃ t, exec (r.1 f) s = .next t ∧ t = { s2 with t := { s2.t with wait := .pool rec_ } })
    let answers (v : Nat) : Prop :=
      ∃ t, exec (r.1 f) s = .next t ∧ WroteX s t f.d (BitVec.ofNat 64 v) ∧ SameTraps s t ∧ SameBytes s t ∧
        SameButAhead t.t.arch { s.t.arch with pc := s.t.arch.pc + 4, vp := nextVp s, x := t.t.arch.x }
    let faults (reason : Nat) : Prop := ∃ t, exec (r.1 f) s = .next t ∧ LaunchFaulted s t reason va
    ((∀ b, s.t.wait ≠ .pool b) →
      (va.toNat % 64 ≠ 0 → ∃ t, exec (r.1 f) s = .next t ∧ TrappedAfterCommit s t (.of 0x06 va 0)) ∧
      (∀ rec_ s1, va.toNat % 64 = 0 → readRecord (openStrip (commit s) 1) va.toNat 128 = .ok (rec_, s1) →
        (∀ n, recordReason s1 s1.u.part (myJobId s1) rec_ true true = some n → faults n) ∧
        (recordReason s1 s1.u.part (myJobId s1) rec_ true true = none →
          ((myJob s1).depthLimit < childDepth s1 → if r.2 then answers 3 else faults 3) ∧
          (childDepth s1 ≤ (myJob s1).depthLimit →
            (refusal (myPart s1) (myJobId s1) = none → accepts rec_ s1) ∧
            (∀ st, refusal (myPart s1) (myJobId s1) = some st →
              (r.2 = true → answers st) ∧
              (r.2 = false → st = 1 → quotaIsOwn s1 = true → faults 4) ∧
              (r.2 = false → (st = 1 → quotaIsOwn s1 = false) → ∃ t, exec (r.1 f) s = .next t ∧ t.t.wait = .pool rec_ ∧
                SameButAhead t.t.arch s.t.arch ∧ SameBytes s t)))))) ∧
    (∀ rec_, s.t.wait = .pool rec_ → refusal (myPart s) (myJobId s) = none → accepts rec_ (openStrip (commit s) 1))

/-- A launch that is accepted stands in the pool under its handle with every unit outstanding, and is counted in its job
(R256 to R258). -/
def Sys2Proof.Machine.AcceptedLaunchesAreCounted : Prop :=
  ∀ part job rec_ c s, part < 4 → c.parent = none → (getJob (getPart s part) job).canc = false →
    (getCounter (getJob (getPart s part) job).graphs (recGraph rec_)).canc = false →
    (getCounter (getJob (getPart s part) job).phases (recPhase rec_)).canc = false →
    let p := getPart s part
    let a := acceptLaunch part job rec_ c s
    a.1 = handleOf (freeEntry p) (freeGen p) ∧
      (∃ l ∈ (getPart a.2 part).launches, l.entry = freeEntry p ∧ l.gen = freeGen p ∧ l.job = job ∧ l.record = rec_ ∧
        l.outstanding = recUnits rec_ ∧ l.completed = 0 ∧ l.canc = false ∧ l.nextUnit = 0 ∧ l.depth = c.depth) ∧
      (getJob (getPart a.2 part) job).outstanding = (getJob p job).outstanding + 1 ∧ a.2.mem = s.mem ∧ a.2.t = s.t ∧
      ∀ q, q ≠ part → getPart a.2 q = getPart s q

/-- A launch by a thread is outstanding in the thread's launch too, unless its record has NBP set; then it has no parent
(R254, R258). -/
def Sys2Proof.Machine.ChildLaunchesCountInTheirParent : Prop :=
  ∀ part job rec_ c s e g l, part < 4 → c.parent = some (e, g) → findLaunch (getPart s part) e g = some l →
    (getJob (getPart s part) job).canc = false →
    (getCounter (getJob (getPart s part) job).graphs (recGraph rec_)).canc = false →
    (getCounter (getJob (getPart s part) job).phases (recPhase rec_)).canc = false →
    let nbp := bitsAt (fieldAt rec_ 43 1) 2 1 = 1
    let q := getPart (acceptLaunch part job rec_ c s).2 part
    findLaunch q e g = some { l with outstanding := l.outstanding + (if nbp then 0 else 1) } ∧
      ∃ n ∈ q.launches, n.entry = freeEntry (getPart s part) ∧ n.gen = freeGen (getPart s part) ∧ n.record = rec_ ∧
        n.parent = (if nbp then none else some (e, g)) ∧ n.ancestors = c.ancestors

/-- `launch` and `launch.nb`, and what an acceptance leaves (R254, R256 to R258, R263, R280). Corners of the record's checks are
the model's readings (log entry 10), and so is that a launch waits for the ends of epochs (log entry 8). -/
def Obligations.LaunchesAreAccepted : Prop :=
  Sys2Proof.Machine.LaunchesAreAcceptedOrWait ∧ Sys2Proof.Machine.AcceptedLaunchesAreCounted ∧
    Sys2Proof.Machine.ChildLaunchesCountInTheirParent

/-- `join` completes where its handle's counter is done: X[d] takes the status word and what the thread has read ahead or
cached is dropped; else it commits the strip and waits. A malformed handle is a Launch fault of reason 6, and a counter that
cannot be done while the thread waits one of reason 7 (R263, R281). -/
def Sys2Proof.Machine.JoinReturnsTheStatus : Prop :=
  ∀ f s, Able 0xE2 f s →
    let h := getX s f.a
    let faults (reason : Nat) : Prop := ∃ t, exec (.join f) s = .next t ∧
      TrappedAfterCommit s t (.of 0x13 (BitVec.ofNat 64 (reason * 2 ^ 56 + h.toNat % 2 ^ 56)) 0)
    (parseHandle h.toNat = none → faults 6) ∧
    (∀ lv g n, parseHandle h.toNat = some (lv, g, n) →
      (∀ w, joinWord s h = some w → (s.t.wait = .none → joinsItself s lv g n = false) →
        ∃ t, exec (.join f) s = .next t ∧ ClosedStrip s { t with u := s.u } 1 ∧ t.u = { s.u with cache := [] } ∧
          WroteX s t f.d w ∧
          SameButAhead t.t.arch { s.t.arch with pc := s.t.arch.pc + 4, vp := nextVp s, x := t.t.arch.x }) ∧
      (joinWord s h = none → joinsItself s lv g n = false →
        ∃ t, exec (.join f) s = .next t ∧ WaitsAfterCommit s t (.counter h none)) ∧
      (joinsItself s lv g n = true → (s.t.wait = .none ∨ joinWord s h = none) → faults 7))

/-- `cancel` of a well-formed handle completes, marks what the handle names in the thread's job as cancelled, and leaves
the registers; a malformed handle is a Launch fault of reason 6 (R263, R283). -/
def Sys2Proof.Machine.CancelActsOnItsHandle : Prop :=
  ∀ f s, Able 0xE3 f s →
    (∀ x, parseHandle (getX s f.a).toNat = some x → ∃ t, exec (.cancel f) s = .next t ∧
      t = complete (cancelHandle s.u.part (myJobId s) (getX s f.a).toNat (nextPc s))) ∧
    (parseHandle (getX s f.a).toNat = none → ∃ t, exec (.cancel f) s = .next t ∧
      RolledBack s t (.of 0x13 (BitVec.ofNat 64 (6 * 2 ^ 56 + (getX s f.a).toNat % 2 ^ 56)) 0))

/-- What a cancel leaves (R283, R306): every launch that the level names is cancelled, and of one that is newly so no unit is
left; a graph, a phase and a job stay marked; a cancel of a job that spans devices is sent to each of its other ranks, and a
second one of it is not. -/
def Sys2Proof.Machine.CancelledLevelsAreMarked : Prop :=
  ∀ part job h lv g n s, part < 4 → parseHandle h = some (lv, g, n) →
    ((getPart s part).launches.map (fun l => l.entry)).Nodup →
    let t := cancelHandle part job h s
    let p := getPart s part
    let q := getPart t part
    let j := getJob q job
    (lv = 1 → (∀ l ∈ q.launches, l.job = job → l.entry = n → l.gen = g → l.canc = true) ∧
      (∀ l, launchOf p job n g = some l → l.canc = false → InPlace s →
        ∀ u ∈ allUnits t, u.part = part → u.entry = n → u.gen ≠ g)) ∧
    (lv = 2 → (getCounter j.graphs n).canc = true ∧ ∀ l ∈ q.launches, l.job = job → recGraph l.record = n → l.canc = true) ∧
    (lv = 3 → (getCounter j.phases n).canc = true ∧ ∀ l ∈ q.launches, l.job = job → recPhase l.record = n → l.canc = true) ∧
    (lv = 4 → j.canc = true ∧ (∀ l ∈ q.launches, l.job = job → l.canc = true) ∧
      q.cancelOut = p.cancelOut ++ (if (getJob p job).canc then []
        else ((getJob p job).ranks.filter (fun r => r != (getJob p job).rank)).map (fun r => (r, job))))

/-- `join` and `cancel` (R263, R281, R283, R306). What a released handle reads is the model's reading (log entry 10), and so is
what a rollback does with a VP block (log entry 31). -/
def Obligations.JoinsAndCancelsActOnTheirHandle : Prop :=
  Sys2Proof.Machine.JoinReturnsTheStatus ∧ Sys2Proof.Machine.CancelActsOnItsHandle ∧
    Sys2Proof.Machine.CancelledLevelsAreMarked

/-- `yield` completes: the strip commits, and the unit is marked a quantum victim where a launch of at least its priority
waits for a cluster and none is free (R284). `lanepart` completes for a request of 8 to 64 lanes in steps of 8: X[d] takes
the old lpr and the shares of the core are computed again (R285, R290). -/
def Sys2Proof.Machine.YieldAndLanepartComplete : Prop :=
  (∀ f s, Able 0xE5 f s →
    let s1 := closeDone (commit s)
    ∃ t, exec (.yield f) s = .next t ∧ ClosedStrip s { t with u := s.u } 1 ∧
      t.t.arch = { s.t.arch with pc := s.t.arch.pc + 4, vp := nextVp s } ∧
      t.u = { s.u with yielding := s.u.yielding || (match myLaunch s1 with
        | none => false
        | some l => waitsForCluster s1 s1.u.part (effPrio (myPart s1) l) l.order) }) ∧
  (∀ f s, Able 0xE6 f s → isDet s = false →
    let n := (getX s f.a).toNat
    n ≠ 0 → n % 8 = 0 → n ≤ 64 →
    let s1 := setX s f.d (lprWord s)
    ∃ t, exec (.lanepart f) s = .next t ∧
      t = complete (nextPc (reshare s1.t.slot { s1 with t := { s1.t with dem := n } })))

/-- The shares of a core (R272, R290): two demands that fit its 64 lanes are both met; of two that do not, each context keeps
at least 32 lanes or its demand, the smaller demand (the higher slot on a tie) no more than that, and the shares fill the
core. PEND of each context becomes its share where that differs from what it holds, and else 0. That a deadline which runs for
the same value goes on is the model's reading (log entry 14). -/
def Sys2Proof.Machine.SharesFollowTheDemands : Prop :=
  (∀ d0 d1, d0 ≤ 64 → d1 ≤ 64 →
    let sh := sharesOf d0 d1
    (d0 + d1 ≤ 64 → sh = (d0, d1)) ∧
    (64 < d0 + d1 → sh.1 + sh.2 = 64 ∧ min d0 32 ≤ sh.1 ∧ sh.1 ≤ d0 ∧ min d1 32 ≤ sh.2 ∧ sh.2 ≤ d1 ∧
      (d1 ≤ d0 → sh.2 = min d1 32) ∧ (d0 < d1 → sh.1 = min d0 32))) ∧
  (∀ time wide det lanes core ts,
    let dem (t : Thread) : Nat := if det then lanes else t.dem
    let takes (t : Thread) (share : Nat) : Thread :=
      let pend := if share = t.own then 0 else share
      { t with pend := pend, pendAt := if pend = t.pend then t.pendAt else time }
    (∀ a, ts.filter (onCore wide core) = [a] →
      reshareThreads time wide det lanes core ts = ts.map (fun t => if t.slot = a.slot then takes t (dem a) else t)) ∧
    (∀ a b, ts.filter (onCore wide core) = [a, b] →
      reshareThreads time wide det lanes core ts = ts.map (fun t =>
        if t.slot = a.slot then takes t (sharesOf (dem a) (dem b)).1
        else if t.slot = b.slot then takes t (sharesOf (dem a) (dem b)).2 else t)) ∧
    (ts.filter (onCore wide core) = [] → reshareThreads time wide det lanes core ts = ts))

/-- A thread that exits while another of its unit lives (R279, R287, R291, R320): its context is zeroed but for what it has
committed; the other threads keep everything but their pending shares; and a barrier at which all of them have arrived
completes its generation. -/
def Sys2Proof.Machine.ThreadsLeaveTheirCore : Prop :=
  ∀ s, InPlace s → s.t.live = true → (∃ r ∈ s.u.threads, r.live = true) →
    let x := threadExit s
    x.t = { Thread.none with slot := s.t.slot, performing := s.t.performing, wcb := s.t.wcb, epoch := s.t.epoch } ∧
      x.units = s.units ∧
      x.u.threads.map (fun r => { r with pend := 0, pendAt := 0 }) = s.u.threads.map (fun r => { r with pend := 0, pendAt := 0 }) ∧
      x.u.barGen = s.u.barGen +
        (if s.u.arrived ≠ [] ∧ (∀ r ∈ s.u.threads, r.live = true → r.slot ∈ s.u.arrived) then 1 else 0)

/-- `exit` completes: the strip commits and the thread ends; the machine after it is that of R287 and R291. -/
def Sys2Proof.Machine.ExitEndsTheThread : Prop :=
  ∀ f s, Able 0xE9 f s →
    ∃ t, exec (.exit f) s = .next t ∧ t = complete (threadExit (commit s))

/-- Where the function registers do not fit a pending lane reduction, `setvl` completes against the new share and its
thread is switched out alone with its context saved, behind its `setvl` (R147, R273). `u` is the machine before the
switch-out. That the thread leaves with its old share is the model's reading (log entry 14). -/
def Sys2Proof.Machine.SetvlBeyondThePoolSwitchesOut : Prop :=
  ∀ f s, Able 0x40 f s → poolTooSmall s = true →
    let n := if f.imm then (imm14 f).toNat else (getX s f.a).toNat
    let vl := grantOf n (vlmax (withLanes s.t.pend s)) (vtrBlock s)
    ∀ i ∈ [Instr.setvl f, .setvli f], ∃ t u, exec i s = .next t ∧ ClosedStrip s (complete u) 0 ∧
      u.t.arch = { s.t.arch with
        pc := s.t.arch.pc + 4, vp := nextVp s, x := u.t.arch.x, vl := vl
        stripSeq := (s.t.arch.stripSeq + 1) % 2 ^ 64, ordinal := 0 } ∧
      (∀ r : Field, getX u r = if r = f.d ∧ r ≠ 0 ∧ r.toNat < 64 then BitVec.ofNat 64 vl else getX s r) ∧
      t = complete (leaveSaved u) ∧ t.t.away = true ∧ t.t.arch = dropAhead u.t.arch ∧ t.t.performing = [] ∧
      t.t.own = s.t.own ∧ t.t.pend = s.t.pend

/-- `yield`, `lanepart` and `exit` (R284, R285, R287, R290, R291). When a reclaim deadline starts anew, how long a unit that has
yielded stays a victim, and how a thread beyond the pool leaves, is the model's reading (log entry 14). -/
def Obligations.ThreadsYieldShareAndEnd : Prop :=
  Sys2Proof.Machine.YieldAndLanepartComplete ∧ Sys2Proof.Machine.SharesFollowTheDemands ∧
    Sys2Proof.Machine.ExitEndsTheThread ∧ Sys2Proof.Machine.ThreadsLeaveTheirCore ∧
    Sys2Proof.Machine.SetvlBeyondThePoolSwitchesOut

/-! ### Events at a thread's boundaries -/

/-- The suspension that a fault at a row, an element or a timeline leaves (R176, R233). -/
def Sys2Proof.Machine.suspendFor (f : MemFault) (telem issuer : Nat) : Suspend :=
  { sub := f.code, tval := BitVec.ofNat 64 f.addr, telem := telem, issuer := issuer, delivered := false }

/-- The machine once a copy has run from the element that it stands at (R232, R233): ended, or stopped at the element that
faults, with its timeline suspended and the bytes that it has overwritten kept. -/
def Sys2Proof.Machine.CopyHasRun (s : State) (c : Copy) (x : State) : Prop :=
  let r := performCopy s c
  (r.stop = none → x = setCopy r.s { c with started := true, ended := true, saved := [] }) ∧
  (∀ k f, r.stop = some (k, f) →
    x = setCsusp (setCopy r.s { c with started := true, done := k, saved := r.old }) c.tl (some (suspendFor f c.tl c.issuer)))

/-- A unit that ends leaves the machine (R283, R331): no unit of its number is left; with a fault its launch, where that is not
complete, and its job have FAULT set. That its job has it is the model's reading (log entry 10). -/
def Sys2Proof.Machine.EndedUnitsAreGone : Prop :=
  (∀ uid fault s u, InPlace s → u.part < 4 → unitAt s uid = some u →
    let x := endUnit uid fault s
    (∀ v ∈ allUnits x, v.uid ≠ uid) ∧
    (fault = true → ∀ l, findLaunch (getPart s u.part) u.entry u.gen = some l →
      (getJob (getPart x u.part) l.job).fault = true ∧
        ∀ r ∈ (getPart x u.part).launches, r.entry = u.entry → r.gen = u.gen → r.fault = true)) ∧
  (∀ uid code tval spc telem sub s u, unitAt s uid = some u →
    endFaulted uid code tval spc telem sub s = endUnit uid true (journal s u.part 6 code (jobOf s u) 0
      (leBytes 4 (handleOf u.entry u.gen) ++ leBytes 4 u.index ++ leBytes 8 tval.toNat ++ leBytes 8 spc.toNat ++
        leBytes 2 telem ++ leBytes 1 sub)))

/-- What happens at and beside a thread's instructions: an old strip closes (R240), a VP group yields after 64 instructions
(R125), an engine fault is delivered in U mode (R332, R333), a single step traps (R335), a wait ends (R276), the image of
a new thread is loaded and measured (R33, R316), an element is read ahead (R227), and the events that stand for a write
of vtr, rpr, CPSTAT and ENDUNIT (R86, R176, R233, R331). At a boundary the items go in the order of R332. When an agent's turn
comes is the model's choice (log entry 4), and so is what a trap does with a VP block (log entry 31), and that a copy which a
write of CPSTAT resumes runs on in the same step (log entry 9). -/
def Sys2Proof.Machine.ThreadEventsActOnTheirThread : Prop :=
  ∀ i s s1, PackageUp s → focus i s = some s1 → s1.t.live = true →
    let pc := s1.t.arch.pc
    let user := s1.t.mode = .user
    (atBoundary s1 = true → dueFault s1 = none → s1.t.stepDue = false → stripOld s1 = true → EventOfThread (.stripAgeClose i) s (fun x => x = { s1 with t := { s1.t with
      ckpt := s1.t.arch, strip := .empty 4, performing := s1.t.performing ++ stripEffects s1, noRollback := false
      stripAge := 0
      spc := (match s1.t.mode with
        | .user => pc
        | .super => s1.t.spc) } })) ∧
    (∀ v, atBoundary s1 = true → dueFault s1 = none → s1.t.stepDue = false → stripOld s1 = false → loadDue s1 = false →
      s1.t.arch.vp = some v → 64 ≤ v.count → EventOfThread (.vpGroupYield i) s (fun x =>
      x = { s1 with t := { s1.t with arch := x.t.arch } } ∧ GroupChosen s1.t.arch x.t.arch v (some (lowestVp v)))) ∧
    (∀ y, atBoundary s1 = true → user → dueFault s1 = some y → EventOfThread (.engineFaultDelivery i) s (fun x =>
      Trapped s1 x .A (suspendCause y) pc pc ∧ x.u = (markDelivered s1).u ∧
        x.t.performing = s1.t.performing ++ stripEffects s1 ∧
        x.t.arch = { s1.t.arch with pc := s1.t.tvec, vp := none })) ∧
    (atBoundary s1 = true → dueFault s1 = none → s1.t.stepDue = true → EventOfThread (.singleStepBreakpoint i) s (fun x =>
      Trapped s1 x .A (.of 0x17 0 0) pc pc ∧ x.u = s1.u ∧ x.t.stepDue = false ∧
        x.t.performing = s1.t.performing ++ stripEffects s1 ∧
        x.t.arch = { s1.t.arch with pc := s1.t.tvec, vp := none })) ∧
    (onCluster s1 = true → waitReady s1 = true → EventOfThread (.waitingContextReady i) s (fun x =>
      x = { s1 with agenda := .issue i :: s1.agenda })) ∧
    (∀ image s2, atBoundary s1 = true → dueFault s1 = none → s1.t.stepDue = false → stripOld s1 = false →
      s1.t.dictPending = true → user → readImage (recDict (myRecord s1)) s1 = .ok (image, s2) →
      EventOfThread (.dictImageLoad i) s (fun x => x.t.dictPending = false ∧ x.t.image = some image ∧
        (∀ k (h : k < 256), x.t.dict[k] =
          (let w := BitVec.ofNat 64 (fieldAt image (8 * k) 8); if validLong w then w else undefinedEntry)) ∧
        SameBytes s1 x ∧
        (measured { s2 with t := { s2.t with image := some image } } = true →
          x.t.dictLoading = false ∧ SameButAhead x.t.arch s1.t.arch ∧ x.t.mode = .user) ∧
        (measured { s2 with t := { s2.t with image := some image } } = false →
          x.t.dictLoading = true ∧ x.t.mode = .super ∧ x.t.tcause = 0x1A ∧ x.t.tval = 0 ∧ x.t.spc = pc ∧
            x.t.arch.pc = s1.t.tvec))) ∧
    (∀ e, atBoundary s1 = true → dueFault s1 = none → s1.t.stepDue = false → stripOld s1 = false →
      s1.t.dictPending = true → user → readImage (recDict (myRecord s1)) s1 = .error e →
      EventOfThread (.dictImageLoad i) s (fun x => x.t.dictPending = true ∧
        (∀ k (h : k < 256), x.t.dict[k] = undefinedEntry) ∧ x.t.mode = .super ∧ x.t.tcause = BitVec.ofNat 64 e.code ∧
        x.t.tval = BitVec.ofNat 64 e.addr ∧ x.t.spc = pc ∧ x.t.arch.pc = s1.t.tvec)) ∧
    (∀ r : Field, ∀ k ty, EpochEnded s1 → r.toNat < 8 → s1.u.cluster.isSome = true → s1.t.away = false →
      streamType (getStream s1 r) = some ty → (getStream s1 r).cons ≤ k →
      k < bitsAt (getStream s1 r).word.toNat 0 27 → (∀ e ∈ (getStream s1 r).ahead, e.1 ≠ k) →
      let e := streamElem (getStream s1 r) ty (k - (getStream s1 r).cons)
      (∀ locs s2, e.va % e.bytes = 0 → translateRun (threadSpace s1) .load e.bytes e.va s1 = .ok (locs, s2) →
        dataError s2 e.va locs = none →
        EventOfThread (.streamReadAhead i r.toNat k) s (fun x => OnlyThread s1 x ∧ SameBytes s1 x ∧
          x.t = { s1.t with arch := { s1.t.arch with sm := x.t.arch.sm } } ∧
          ∀ n, getStream x n = if n = r then { getStream s1 r with
            ahead := (getStream s1 r).ahead ++ [(k, viewValue (fillLines locs s2) locs, locs.headD 0)] }
            else getStream s1 n)) ∧
      (e.va % e.bytes ≠ 0 → EventOfThread (.streamReadAhead i r.toNat k) s (fun x => x = s1))) ∧
    (∀ v : W64, let n := v.toNat
      (Nat.land n (2 ^ 64 - 2 ^ 19 + 2 ^ 5) = 0 → vtrBad n = false → EventOfThread (.vtrWrite i v) s (fun x =>
        let w := vtrWord ((ElemTy.ofCode (bitsAt n 0 5)).getD .f32) (bitsAt n 6 3) (bitsAt n 9 2) (bitsAt n 11 3) (bitsAt n 14 2)
        x = { s1 with t := { s1.t with arch := { s1.t.arch with
          vtr := w, vl := min s1.t.arch.vl (vlmax (withArch s1 { s1.t.arch with vtr := w })) } } })) ∧
      (Nat.land n (2 ^ 64 - 2 ^ 19 + 2 ^ 5) ≠ 0 ∨ vtrBad n = true →
        EventOfThread (.vtrWrite i v) s (fun x => RolledBack s1 x (.of 0x10 0 0)))) ∧
    (s1.t.mode = .super → s1.u.tsusp.isSome = true → EventOfThread (.rprSuspWrite i) s (fun x =>
      x = { commit s1 with u := { s1.u with tsusp := none } })) ∧
    (∀ n, s1.t.mode = .super → (getCsusp s1 n).isSome = true → EventOfThread (.cpstatSuspWrite i n) s (fun x =>
      (headCopy s1 n = none → x = commit s1) ∧
      (∀ c, headCopy s1 n = some c → CopyHasRun (setCsusp (commit s1) n none) c x))) ∧
    (s1.t.mode = .super → EventOfThread (.endunitWrite i) s (fun x =>
      let code := bitsAt s1.t.tcause.toNat 0 8
      x = endFaulted s1.u.uid code s1.t.tval s1.t.spc s1.t.telem
        (if code = 0x12 then bitsAt s1.t.tcause.toNat 8 6 else 0) (commit s1)))

/-- The events at and beside a thread's instructions (R86, R125, R176, R227, R233, R240, R276, R331 to R335), and what the end
of a unit leaves. When an agent's turn comes is the model's choice (log entry 4), and so is what a trap does with a VP block
(log entry 31), that a resumed copy runs on in the same step (log entry 9), and that the job of a unit which ends with a fault
has FAULT set (log entry 10). -/
def Obligations.ThreadEventsActOnTheirThread : Prop :=
  Sys2Proof.Machine.ThreadEventsActOnTheirThread ∧ Sys2Proof.Machine.EndedUnitsAreGone

/-! ### Committed effects -/

/-- Committed effects perform (R81, R237): a store that no earlier store goes before performs its first element, which
changes the element's bytes alone; in a deterministic launch it joins the buffer of its epoch; a fence, a slot advance or
a tile operation's mark passes once no store is left before it; a command issues once no store and no command is. An
epoch ends once every thread of the launch has fenced it. That a command or a slot advance behind buffered stores joins the
buffer, and that the slot bytes of a `chsend` perform at once, is the model's reading (log entry 8). -/
def Obligations.CommittedEffectsPerformInOrder : Prop :=
  (∀ i s s1 before after, PackageUp s → focus i s = some s1 →
    let rest (ps : List Pending) : State := { s1 with t := { s1.t with performing := before ++ ps ++ after } }
    (∀ st e es, s1.t.performing = before ++ .store st :: after → CanonicalMemory s1 → isDet s1 = false ∨ st.cls = 16 →
      blockedBy before st = false → st.elems = e :: es →
      EventOfContext (.stripStoresPerform i before.length) i s (fun x =>
        x.t = (rest (if es = [] then [] else [.store { st with elems := es }])).t ∧ x.parts = s1.parts ∧
          ∀ a, rawByte x a = overlayBytes a e (rawByte s1 a))) ∧
    (∀ st, s1.t.performing = before ++ .store st :: after → isDet s1 = true → st.cls ≠ 16 →
      before.all (fun p => match p with | .slots .. => true | .fence _ => true | _ => false) = true →
      EventOfContext (.stripStoresPerform i before.length) i s (fun x =>
        x = { rest [] with t := { (rest []).t with wcb := s1.t.wcb ++ [(s1.t.epoch + 1, .store st)] } })) ∧
    (∀ p, s1.t.performing = before ++ p :: after → p.isStore = false → p.isCmd = false →
      before.any Pending.isStore = false →
      EventOfContext (.stripStoresPerform i before.length) i s (fun x => x = performPending (rest []) p)) ∧
    (∀ n c, s1.t.performing = before ++ .cmd n c :: after → before.any Pending.isStore = false →
      before.any Pending.isCmd = false →
      EventOfContext (.engineCommandIssue i) i s (fun x =>
        (s1.t.wcb ≠ [] → x = { rest [] with t := { (rest []).t with wcb := s1.t.wcb ++ [(s1.t.epoch + 1, .cmd n c)] } }) ∧
        (s1.t.wcb = [] → x = issueCmd (rest []) s1.t.slot n c ∧
          ∀ tl dst src cls, c = .copy tl dst src cls → tl < 15 →
            x.u.tlIssued.toList.getD tl 0 = s1.u.tlIssued.toList.getD tl 0 + 1 ∧ x.u.copies = s1.u.copies ++
              [{ tl := tl, num := n, dst := dst, src := src, cls := cls, issuer := s1.t.slot, started := false, done := 0
                 ended := false, saved := [] }])))) ∧
  (∀ part entry s l, PackageUp s → (getPart s part).launches.find? (fun l => l.entry == entry) = some l →
    let units := (allUnits s).filter (fun u => u.part == part && u.entry == entry && u.gen == l.gen)
    epochOver s l units (l.epochs + 1) = true →
    EventGives (.epochEnd part entry) s (endEpoch part l units (l.epochs + 1) s))

/-! ### Engines -/

/-- The machine once up to `n` rows of an operation have performed (R175, R176): the operation stands behind them, and is done
with its last row; or the engine is suspended at the row that faults. -/
def Sys2Proof.Machine.RowsHaveRun (n : Nat) (s : State) (p : TileOp) (x : State) : Prop :=
  let r := performOp n s p
  (r.2 = none → x = setOp r.1 { p with row := min (p.row + n) p.rowCount, done := decide (p.rowCount ≤ p.row + n) }) ∧
  (∀ row f, r.2 = some (row, f) →
    let s2 := setOp r.1 { p with row := row }
    x = { s2 with u := { s2.u with tsusp := some (suspendFor f row 8) } })

/-- A copy starts at the head of its timeline, runs to its end or to the element that faults, and completes by advancing the
timeline to its number (R232, R233). The oldest tile operation of a placed unit fires once its channels have its slots, which
it claims; its rows perform as the engine reaches them, to the row that faults; it completes by releasing its input slots,
publishing its output slots and advancing timeline 15 (R163, R175, R176, R184). When the engines move is the model's choice
(log entry 4). -/
def Sys2Proof.Machine.EngineEventsRunCopiesAndTiles : Prop :=
  ∀ uid s s1, PackageUp s → focusUnit uid s = some s1 →
    (∀ tl c, headCopy s1 tl = some c → c.started = false → EventOfEngine (.copyStart uid tl) s (CopyHasRun s1 c)) ∧
    (∀ tl c, headCopy s1 tl = some c → c.ended = true → tl < 15 →
      EventOfEngine (.copyComplete uid tl) s (fun x =>
        x = { s1 with u := { s1.u with
          tl := x.u.tl, copies := s1.u.copies.filter (fun r => !(r.tl == tl && r.num == c.num)) } } ∧
        ∀ k, x.u.tl.toList.getD k 0 = if k = tl then c.num else s1.u.tl.toList.getD k 0)) ∧
    (∀ p, nextToFire s1 = some p →
      let q : TileOp := { p with fired := true }
      EventOfEngine (.tileOperationFire uid) s (RowsHaveRun 0 (setOp (claimSlots s1 p) q) q)) ∧
    (∀ p n, inProgress s1 = some p → n ≠ 0 → s1.u.cluster.isSome = true → s1.u.tsusp = none → s1.u.tstop = false →
      ∃ x, execTileRows uid n s = .next (refocus (here s) (settle x)) ∧ RowsHaveRun n s1 p x) ∧
    (∀ p rest, s1.u.ops = p :: rest → p.fired = true → p.done = true →
      EventOfEngine (.tileOperationComplete uid) s (fun x =>
        x = { s1 with u := { s1.u with ops := rest, tl15 := p.num, chans := x.u.chans } } ∧
        ∀ ch, ch < 16 →
          let c := getChan s1 ch
          let i := slotsOn p ch false
          let o := slotsOn p ch true
          getChan x ch =
            if c.scount = 0 ∨ (i = 0 ∧ o = 0) then c
            else { c with
              full := c.full + o - i, cpos := (c.cpos + i) % c.scount, ppos := (c.ppos + o) % c.scount
              claimedIn := c.claimedIn - i, claimedOut := c.claimedOut - o }))

/-- What a tile operation without operands in memory leaves (R190, R193, R196 to R198): no byte of memory and no tile but td
changes; `tcfg` and `tzero` leave zeros, `tadd` of dense tiles the sums, rounded once or wrapping at 64 bits, and `tscale`
of a dense tile the products, rounded once. -/
def Sys2Proof.Machine.TileRegistersTakeTheirResult : Prop :=
  ∀ n s (p : TileOp), p.td < 16 → p.opc ∈ [0xA1, 0xA2, 0xA9, 0xAD] →
    let r := performOp n s p
    let ta := getTile s p.ta
    let tb := getTile s p.tb
    r.2 = none ∧ SameBytes s r.1 ∧ (∀ k, k ≠ p.td → getTile r.1 k = getTile s k) ∧
      (p.opc = 0xA1 ∨ p.opc = 0xA2 → p.hdr.kind = 1 → (getTile r.1 p.td).hdr = p.hdr ∧
        (getTile r.1 p.td).acc = List.replicate (p.hdr.m * p.hdr.n) 0) ∧
      (p.opc = 0xA9 → ta.hdr.kind = 1 → p.hdr.int64 = true →
        (getTile r.1 p.td).acc = (ta.acc.zip tb.acc).map (fun e => (e.1 + e.2) % 2 ^ 64)) ∧
      (p.opc = 0xA9 → ta.hdr.kind = 1 → p.hdr.int64 = false →
        (getTile r.1 p.td).acc = (ta.acc.zip tb.acc).map (fun e => FloatFmt.fp64.round
          ((FloatFmt.fp64.decode e.1).add (FloatFmt.fp64.decode e.2) .rne) .rne)) ∧
      (p.opc = 0xAD → p.hdr.kind = 1 →
        (getTile r.1 p.td).acc = ta.acc.map (fun a => FloatFmt.fp64.round
          ((FloatFmt.fp64.decode p.val.toNat).mul (FloatFmt.fp64.decode a)) .rne))

/-- A copy whose records overlap reads its source as it was before the copy, whatever it has overwritten, also where it goes
on after a fault; one without elements accesses nothing (R230, R231). -/
def Sys2Proof.Machine.CopiesReadTheirSourceFirst : Prop :=
  (∀ s c, CanonicalMemory s → hullsMeet (tensorOf c.dst) (tensorOf c.src) = true →
    ∀ a, sourceByte (performCopy s c).old (performCopy s c).s a = sourceByte c.saved s a) ∧
  (∀ s c, (tensorOf c.dst).isEmpty = true ∨ (tensorOf c.src).isEmpty = true →
    (performCopy s c).s = s ∧ (performCopy s c).stop = none)

/-- Copies and tile operations (R163, R175, R176, R184, R190 to R198, R230 to R233). When the engines move is the model's
choice (log entry 4); when a copy reads its source and in which order a row reads its operands are its readings (log entries
9, 17). -/
def Obligations.EngineEventsRunCopiesAndTiles : Prop :=
  Sys2Proof.Machine.EngineEventsRunCopiesAndTiles ∧ Sys2Proof.Machine.TileRegistersTakeTheirResult ∧
    Sys2Proof.Machine.CopiesReadTheirSourceFirst

/-! ### Hornbeam -/

/-- Placement (R261, R262, R267): the chosen launch's next unit takes a free cluster with its threads not yet started and,
without an image, a scratchpad of zeros; a thread starts in the state of R261 with an empty cluster cache (R242); 8 ms more
of waiting raise a launch's priority (R268); an entry leaves quarantine (R257); a kick reads the context table (R338). When
these happen is the model's choice (log entry 4), and so is the reading of an entry outside the partition's DRAM (log entry
24), that a launch of a phase is ready only while every launch of the phases below is complete (log entry 10), and which
launches are no candidates while another waits for the room made for it (log entry 14). -/
def Sys2Proof.Machine.HornbeamPlacesAndStarts : Prop :=
  (∀ part cluster s l, PackageUp s → chosen s part = some (.fresh l) → lacksCluster s part (.fresh l) = false →
    cluster ∈ holders s part l → findLaunch (getPart s part) l.entry l.gen = some l →
    let rest := (holders s part l).filter (fun c => c != cluster)
    let t := (cluster :: rest.take (unitsAtOnce l - 1)).foldl (placeUnit part l) (requestFrames part s)
    EventGives (.unitPlacement part cluster) s t ∧
      (recCores l.record = false → recCspImg l.record = 0 → ∃ u ∈ t.units, u.uid = s.nextUid ∧ u.cluster = some cluster ∧
        u.index = l.nextUnit ∧ u.entry = l.entry ∧ u.gen = l.gen ∧ u.part = part ∧ u.csp = [] ∧
        u.threads = (unitSlots l.record).map (bornThread (8 * recLanes l.record)))) ∧
  (∀ i s s1, PackageUp s → focus i s = some s1 → s1.t.live = true → s1.t.wait = .start → s1.u.cluster.isSome = true →
    let r := myRecord s1
    let mcc := s1.t.slot = 8
    EventOfThread (.threadStart i) s (fun x =>
      x = { s1 with t := x.t, u := { s1.u with cache := [] } } ∧
      x.t.arch = { Arch.zero with
        pc := BitVec.ofNat 64 (recEntry r + (if mcc then recMccOff r else 0)), x := x.t.arch.x
        vnreg := (if mcc then 0 else recVregs r), v := List.replicate (if mcc then 0 else recVregs r) 0
        seed := BitVec.ofNat 64 (recSeed r) } ∧
      (∀ n : Field, getX x n =
        if n = 1 then BitVec.ofNat 64 (recArgs r) else if n = 2 then BitVec.ofNat 64 s1.t.slot else 0) ∧
      x.t.ckpt = x.t.arch ∧ x.t.strip = .empty 5 ∧ x.t.mode = .user ∧ x.t.spc = x.t.arch.pc ∧ x.t.wait = .none ∧
      x.t.tvec = (myPart s1).tvecdef ∧ x.t.dictPending = (recDict r != 0) ∧
      (∀ k (h : k < 256), x.t.dict[k] = undefinedEntry) ∧ x.t.slot = s1.t.slot ∧ x.t.own = s1.t.own ∧ x.t.dem = s1.t.dem)) ∧
  (∀ part entry s l, PackageUp s → (getPart s part).launches.find? (fun l => l.entry == entry) = some l →
    unplaced l = true → launchReady s part l = true →
    EventGives (.priorityAging part entry) s (tick (8000000 - l.waited % 8000000) s)) ∧
  (∀ part entry s q, PackageUp s → (getPart s part).quarantine.find? (fun q => q.1 == entry) = some q →
    1000000 ≤ s.time - q.2 → EventGives (.poolEntryQuarantineEnd part entry) s
      (mapPart s part (fun p => { p with quarantine := p.quarantine.erase q }))) ∧
  (∀ part s, PackageUp s → hasPart s part = true →
    let p := getPart s part
    EventGives (.ctxtblKick part) s (setPart s part { p with
      ctx := (List.range (2 ^ (bitsAt p.ctxtbl.toNat 4 4 + 8))).map (fun i =>
        ctxEntryOf (if dramOwned s part (ctxAddr p i) then Memory.readN s.mem (ctxAddr p i) 32 else [])) }))

/-- What the placement of one unit leaves (R261, R262, R267 to R269): the unit stands on its cluster with its threads not
started, and the launch's next unit is the one behind it; its priority is frozen with its last unit. That no unit gives way to
it any longer is the model's reading (log entry 14). -/
def Sys2Proof.Machine.PlacedUnitsStandOnTheirCluster : Prop :=
  ∀ part l s cluster, part < 4 → findLaunch (getPart s part) l.entry l.gen = some l → recCspImg l.record = 0 →
    (∀ u ∈ s.units, u.uid < s.nextUid) →
    let t := placeUnit part l s cluster
    let waitsNot (u : UnitCtx) : UnitCtx :=
      if u.part = part ∧ u.behind = some (l.order, l.nextUnit) then { u with behind := none } else u
    t.nextUid = s.nextUid + 1 ∧ t.t = s.t ∧ t.u = waitsNot s.u ∧
      (∀ u, u ∈ t.units ↔ (∃ v ∈ s.units, u = waitsNot v) ∨ u = { UnitCtx.empty with
        uid := s.nextUid, part := part, entry := l.entry, gen := l.gen, index := l.nextUnit, cluster := some cluster
        since := s.time, threads := (unitSlots l.record).map (bornThread (8 * recLanes l.record)) }) ∧
      findLaunch (getPart t part) l.entry l.gen = some { l with
        nextUnit := l.nextUnit + 1
        frozen := if l.nextUnit + 1 = recUnits l.record then some (effPrio (getPart s part) l) else l.frozen }

/-- Time ages what is ready (R268): a tick adds its nanoseconds to the waiting time of every launch that is ready with a unit
unplaced, and every full 8 ms of that raise the effective priority by 1, to the job's ceiling. -/
def Sys2Proof.Machine.TimeAgesReadyLaunches : Prop :=
  (∀ part ns s, part < 4 → (getPart (tick ns s) part).launches = (getPart s part).launches.map (fun l =>
    if l.nextUnit < recUnits l.record ∧ launchReady s part l = true then { l with waited := l.waited + ns } else l)) ∧
  (∀ p l, l.frozen = none → effPrio p l = min (getJob p l.job).ceil (recPrio l.record + l.waited / 8000000)) ∧
  (∀ p l n, l.frozen = some n → effPrio p l = n)

/-- The candidate that Hornbeam places is the first in the order of R267 of those that can be placed: higher effective priority
first, then the older acceptance, then the lower unit index. The model's reading of R269 (log entry 14): while a candidate can
be placed for which a unit was switched out, no unit of the victim's launch is a candidate, unless one was switched out for it;
every other unit that is offered is one. -/
def Sys2Proof.Machine.TheFirstCandidateIsChosen : Prop :=
  (∀ s part c, chosen s part = some c → c ∈ candidates s part ∧ placeable s part c = true ∧
    ∀ d ∈ candidates s part, placeable s part d = true →
      let p := getPart s part
      effPrio p d.launch ≤ effPrio p c.launch ∧ (effPrio p d.launch = effPrio p c.launch →
        c.launch.order ≤ d.launch.order ∧ (c.launch.order = d.launch.order → c.index ≤ d.index))) ∧
  (∀ s part c, c ∈ offered s part →
    let mates := (allUnits s).filter (fun u => u.part == part && u.entry == c.launch.entry && u.gen == c.launch.gen)
    let wanted : Prop := ∃ u ∈ allUnits s, u.part = part ∧ u.behind = some c.key
    (¬wanted → ∀ u ∈ mates, ∀ d ∈ offered s part, u.behind = some d.key → placeable s part d = true →
      c ∉ candidates s part) ∧
    (wanted → c ∈ candidates s part) ∧
    ((∀ u ∈ mates, u.behind = none) → c ∈ candidates s part))

/-- Hornbeam places, starts and ages (R257, R261, R262, R267 to R269, R338). When these happen is the model's choice (log
entry 4), and so is the reading of an entry outside the partition's DRAM (log entry 24). That the launch of a victim gives way
while the candidate can be placed for which room was made, and that such a candidate gives way to none, is the model's reading
(log entry 14), and so is that phases are looked at each time (log entry 10). -/
def Obligations.HornbeamPlacesAndStarts : Prop :=
  Sys2Proof.Machine.HornbeamPlacesAndStarts ∧ Sys2Proof.Machine.PlacedUnitsStandOnTheirCluster ∧
    Sys2Proof.Machine.TimeAgesReadyLaunches ∧ Sys2Proof.Machine.TheFirstCandidateIsChosen

/-- Switch-outs and restores (R269, R273, R274, R338). Where the candidate that R267 chooses lacks a cluster, a unit of lower
effective priority leaves by rollback, and one whose quantum is over or whose contexts all wait leaves with its strips saved,
each to wait behind the candidate; a thread whose deadline has passed leaves alone; a unit that is chosen comes back, the
units of a CORES launch together; frames that are away are asked for. A rollback switch-out restores the checkpoint, and one
that is saved keeps the registers. That committed stores perform first, and how the quantum counts, is the model's reading
(log entry 14); when these happen is its choice (log entry 4). -/
def Sys2Proof.Machine.HornbeamSwitchesUnits : Prop :=
  (∀ part s c u l, PackageUp s → chosen s part = some c → lacksCluster s part c = true →
    let p := getPart s part
    let leaves (roll : Bool) (u : UnitCtx) (l : Launch) : State := (leaveTogether s u l).foldl
      (fun s uid => mapUnit uid (fun u => { u with behind := some (c.launch.order, c.index) }) (switchOut roll s uid)) s
    (firstVictim p ((rivals s part c).filter (fun v => decide (effPrio p v.2 < effPrio p c.launch))) = some (u, l) →
      EventGives (.preemption part) s (leaves true u l)) ∧
    (firstVictim p ((rivals s part c).filter (outlasts s p c)) = some (u, l) →
      EventGives (.quantumExpiry part u.uid) s (leaves false u l)) ∧
    (∀ uid v, unitAt s uid = some v → v.part = part → (rivals s part c).find? (fun w => w.1.uid == uid) = some (u, l) →
      unitIdle s u = true → EventGives (.idleSwitchOut uid) s (leaves false u l))) ∧
  (∀ i s s1, PackageUp s → focus i s = some s1 → s1.t.live = true → isDet s1 = false → s1.t.pend ≠ 0 →
    s1.t.pend < s1.t.own → s1.t.away = false → s1.u.cluster.isSome = true → s1.t.wait ≠ .start →
    reclaimDue s1 = true → EventOfThread (.reclaimDeadlineExpiry i) s (fun x =>
      let s2 := switchThread true s1
      let s3 := if s2.t.slot < 8 then saveThread (if s1.t.noRollback then 0 else 1) s2 else s2
      x = { s3 with t := { s3.t with away := true } })) ∧
  (∀ uid cluster s u, PackageUp s → unitAt s uid = some u →
    let wanted := (wantedFrames s u.part).filter (fun w =>
      w.2.2.handle == handleOf u.entry u.gen && bitsAt w.2.2.flags 1 1 == 0)
    (u.cluster = none → wanted ≠ [] → EventGives (.unitRestore uid cluster) s (requestFrames u.part s)) ∧
    (∀ l k, u.cluster = none → wanted = [] → chosen s u.part = some (.back l uid k) →
      lacksCluster s u.part (.back l uid k) = false → cluster ∈ holders s u.part l →
      let us := uid :: (backTogether s u.part l uid).filter (fun n => n != uid)
      let cs := cluster :: (holders s u.part l).filter (fun c => c != cluster)
      EventGives (.unitRestore uid cluster) s
        ((us.zip cs).foldl (fun s e => restoreUnit u.part e.1 e.2 s) (requestFrames u.part s))) ∧
    (∀ s1, u.cluster = some cluster → focusUnit uid s = some s1 →
      let away := (unitThreads s1).filter (fun t => t.away && awayMoves s1 t)
      away ≠ [] → EventGives (.unitRestore uid cluster) s (refocus (here s) (away.foldl restoreAway s1)))) ∧
  (∀ s, let d := drain s
    (d.t.noRollback = false → (switchThread true s).t.arch = dropAhead d.t.ckpt ∧ (switchThread true s).t.strip = .empty 5 ∧
      (switchThread true s).t.sfi = sfiWord d.t.strip ∧ (switchThread true s).t.noRollback = true) ∧
    (switchThread false s).t.arch = dropAhead d.t.arch ∧ (switchThread false s).t.strip = d.t.strip)

/-- Who leaves (R269): of the units that may, one of lowest effective priority, of those one of the youngest launch, and of
those the one of highest index. -/
def Sys2Proof.Machine.TheFirstVictimIsLowest : Prop :=
  ∀ p vs v, firstVictim p vs = some v → v ∈ vs ∧ ∀ w ∈ vs, effPrio p v.2 ≤ effPrio p w.2 ∧
    (effPrio p v.2 = effPrio p w.2 → w.2.order ≤ v.2.order ∧ (w.2.order = v.2.order → w.1.index ≤ v.1.index))

/-- A unit that has left stands on no cluster with nothing cached; one that has come back stands on its cluster from now on,
its engines free to go on (R243, R269, R340). -/
def Sys2Proof.Machine.SwitchedUnitsLeaveAndComeBack : Prop :=
  (∀ roll uid s, InPlace s → ∀ u ∈ allUnits (switchOut roll s uid), u.uid = uid → u.cluster = none ∧ u.cache = []) ∧
  (∀ part uid cluster s, InPlace s → ∀ u ∈ allUnits (restoreUnit part uid cluster s), u.uid = uid →
    u.cluster = some cluster ∧ u.since = s.time ∧ u.tstop = false)

/-- A thread that comes back has its handler's address afresh, a new deadline, and a strip that was marked discarded rolled
back (R273, R320, R325, R328). -/
def Sys2Proof.Machine.RestoredThreadsStartAfresh : Prop :=
  ∀ p s, let x := restoreThread p s
    let marked := (if s.t.slot < 8 then loadThread s else s).t.discard
    x.t.tvec = p.tvecdef ∧ x.t.away = false ∧ x.t.pendAt = s.time ∧ x.t.discard = false ∧ x.t.slot = s.t.slot ∧
      (s.t.discard = true → marked = true) ∧
      (marked = true → x.t.strip = .empty 5 ∧ x.t.noRollback = true) ∧
      (marked = false → x.t.strip = s.t.strip)

/-- A vector thread that comes back takes from its frame the header's mode, dictionary state, mark, share and demand, the
scalar registers, and the register count (R320, R339). -/
def Sys2Proof.Machine.RestoredThreadsReadTheirFrame : Prop :=
  ∀ s i e, CanonicalMemory s → frameOf s 1 s.t.slot = some (i, e) →
    let x := loadThread s
    let byte (k : Nat) : Nat := (Memory.read s.mem (e.frame + k)).toNat
    x.t.own = byte 12 ∧ x.t.dem = byte 13 ∧ x.t.arch.vnreg = byte 14 ∧
      x.t.mode = (if bitsAt (byte 6) 2 1 = 1 then .super else .user) ∧ x.t.dictLoading = (bitsAt (byte 6) 3 1 == 1) ∧
      x.t.dictPending = (bitsAt (byte 6) 4 1 == 1) ∧ x.t.discard = (bitsAt (byte 6) 1 1 == 1 || s.t.discard) ∧
      ∀ k : Field, k ≠ 0 → k.toNat < 64 →
        getX x k = BitVec.ofNat 64 (fieldAt (Memory.readN s.mem (e.frame + 0x100 + 8 * k.toNat) 8) 0 8)

/-- A vector thread is saved into its frame (R337, R339): its table entry says saved and present, and the frame holds X from
byte 0x100 on. -/
def Sys2Proof.Machine.SavedThreadsStandInTheirFrame : Prop :=
  ∀ form s i e, CanonicalMemory s → s.u.part < 4 → frameOf s 1 s.t.slot = some (i, e) →
    let t := saveThread form s
    let a := ctxAddr (myPart s) i
    (getPart t s.u.part).ctx[i]? = some { e with state := 2, flags := bitsAt e.flags 1 1 * 2 + 1 } ∧
      (a + 32 ≤ e.frame ∨ e.frame + 0x200000 ≤ a → ∀ k, k ≠ 0 → k < 64 →
        Memory.readN t.mem (e.frame + 0x100 + 8 * k) 8 = leBytes 8 (getX s (BitVec.ofNat 7 k)).toNat)

/-- A unit that comes back finds in its scratchpad what its frame holds, and over it what has performed there since the frame
was written, such as the stores of an epoch that ended meanwhile (R81, R82, R340). -/
def Sys2Proof.Machine.RestoredUnitsReadTheirFrame : Prop :=
  ∀ s i e a, CanonicalMemory s → frameOf s 2 0 = some (i, e) → a < 0x200000 →
    Memory.read (loadUnit s).u.csp a =
      if Memory.read s.u.csp a = Memory.read s.u.cspSaved a then Memory.read s.mem (e.frame + 0x200000 + a)
      else Memory.read s.u.csp a

/-- Switch-outs and restores (R81, R82, R243, R269, R273, R274, R320, R325, R328, R337 to R340). The model's choices in them
are those of log entries 4, 14, 16 and 19. -/
def Obligations.HornbeamSwitchesUnits : Prop :=
  Sys2Proof.Machine.HornbeamSwitchesUnits ∧ Sys2Proof.Machine.TheFirstVictimIsLowest ∧
    Sys2Proof.Machine.SwitchedUnitsLeaveAndComeBack ∧ Sys2Proof.Machine.RestoredThreadsStartAfresh ∧
    Sys2Proof.Machine.RestoredThreadsReadTheirFrame ∧ Sys2Proof.Machine.RestoredUnitsReadTheirFrame ∧
    Sys2Proof.Machine.SavedThreadsStandInTheirFrame

/-! ### The command ring -/

/-- What the X4 writes in a slot of the ring: RESULT, CAUSE, JSEQ and STATE, and no other byte (R278). -/
def Sys2Proof.Machine.SlotIsWritten : Prop :=
  ∀ part i state result cause jseq s, CanonicalMemory s → part < 4 →
    let a := slotAddr (getPart s part) i
    let t := writeSlot part i state result cause jseq s
    let b := Memory.readN t.mem a 64
    fieldAt b 1 1 = state % 256 ∧ fieldAt b 16 8 = result % 2 ^ 64 ∧ fieldAt b 24 8 = cause % 2 ^ 64 ∧
      fieldAt b 32 8 = jseq % 2 ^ 64 ∧
      ∀ k, k ≠ a + 1 → (k < a + 16 ∨ a + 40 ≤ k) → Memory.read t.mem k = Memory.read s.mem k

/-- The host command ring (R278): the command at HEAD is taken and HEAD passes it. An invalid command fails with reason 1; a
launch is accepted, refused or failed; counters are read, launches cancelled, and joins wait outside the ring until their
counter is done. A launch record with a byte in the CSP window is not read: it is an Access violation. The application die's
writes of ADQTAIL, ADQ, CCCFG and, from stage 5 of bring-up on, the doorbell take effect where their fields are legal (R207,
R278, R356), and leave the register as it is otherwise (log entry 25). -/
def Obligations.RingCommandsAreTaken : Prop :=
  SlotIsWritten ∧
  (∀ part job va s, cspBase ≤ va → ringRecord part job va s = .error { code := 0x08, addr := va }) ∧
  (∀ part job va r s t, ringRecord part job va s = .ok (r, t) → va + 128 ≤ cspBase) ∧
  (∀ part s c, PackageUp s → headSlot s part = some c →
    let p := getPart s part
    let i := p.adqHead
    let s1 := mapPart s part (fun p => { p with adqHead := (p.adqHead + 1) % 65536 })
    let h := c.arg % 2 ^ 32
    let fails (reason arg : Nat) (s : State) : State :=
      writeSlot part i 3 (reason * 2 ^ 56 + arg % 2 ^ 56) 0x13 0 s
    (slotBad p c = true → EventGives (.hostCommandInvalid part) s (fails 1 c.arg s1)) ∧
    (slotBad p c = false → c.op = 1 →
      (c.arg % 64 ≠ 0 → EventGives (.hostLaunchCommand part) s (writeSlot part i 3 c.arg 0x06 0 s1)) ∧
      (c.arg % 64 = 0 → ∀ e, ringRecord part c.job c.arg s1 = .error e →
        EventGives (.hostLaunchCommand part) s (writeSlot part i 3 e.addr e.code 0 s1)) ∧
      (c.arg % 64 = 0 → ∀ rec_ s2, ringRecord part c.job c.arg s1 = .ok (rec_, s2) →
        (∀ n, recordReason s2 part c.job rec_ true false = some n →
          EventGives (.hostLaunchCommand part) s (fails n c.arg s2)) ∧
        (recordReason s2 part c.job rec_ true false = none →
          (∀ st, refusal (getPart s2 part) c.job = some st →
            EventGives (.hostLaunchCommand part) s (writeSlot part i 2 st 0 0 s2)) ∧
          (refusal (getPart s2 part) c.job = none →
            let q := getPart s2 part
            let s3 := journal s2 part 1 0 c.job 0 (leBytes 4 (handleOf (freeEntry q) (freeGen q)) ++
              leBytes 4 (recUnits rec_) ++ leBytes 8 c.arg ++ leBytes 8 (recArgs rec_))
            let a := acceptLaunch part c.job rec_ (.outside 0 q.jrnHead) s3
            EventGives (.hostLaunchCommand part) s (writeSlot part i 1 a.1 0 q.jrnHead a.2))))) ∧
    (slotBad p c = false → c.op = 2 →
      (parseHandle h = none → EventGives (.hostReadCounterCommand part) s (fails 6 h s1)) ∧
      ((parseHandle h).isSome = true → EventGives (.hostReadCounterCommand part) s
        (writeSlot part i 1 (handleWord (getPart s1 part) c.job h).toNat 0 0 s1))) ∧
    (slotBad p c = false → c.op = 3 →
      (parseHandle h = none → EventGives (.hostCancelCommand part) s (fails 6 h s1)) ∧
      ((parseHandle h).isSome = true → EventGives (.hostCancelCommand part) s
        (writeSlot part i 1 0 0 0 (cancelHandle part c.job h s1)))) ∧
    (slotBad p c = false → c.op = 4 →
      (parseHandle h = none → EventGives (.hostJoinCommand part) s (fails 6 h s1)) ∧
      ((parseHandle h).isSome = true → EventGives (.hostJoinCommand part) s (mapPart s1 part (fun p => { p with
        hostJoins := p.hostJoins ++ [{ slot := i, job := c.job, handle := BitVec.ofNat 64 h, final := none }] }))))) ∧
  (∀ part slot s j w, PackageUp s → (getPart s part).hostJoins.find? (fun j => j.slot == slot) = some j →
    hostJoinWord (getPart s part) j = some w →
    EventGives (.hostJoinComplete part slot) s
      (writeSlot part slot 1 w.toNat 0 0 (mapPart s part (fun p => { p with hostJoins := p.hostJoins.erase j })))) ∧
  (∀ part s (v : W64), PackageUp s → hasPart s part = true →
    EventGives (.adqtailWrite part v) s (mapPart s part (fun p => { p with adqTail := v.toNat % 65536 })) ∧
    EventGives (.adqWrite part v) s
      (if bitsAt v.toNat 52 12 = 0 ∧ bitsAt v.toNat 1 7 = 0 ∧ bitsAt v.toNat 8 4 ≤ 11 then
        mapPart s part (fun p => { p with adq := v }) else s)) ∧
  (∀ cluster s (v : W64), PackageUp s → cluster < 128 → (∀ u ∈ allUnits s, u.cluster ≠ some cluster) →
    ∃ t, EventGives (.cccfgWrite cluster v) s t ∧ t = { s with cccfg := t.cccfg } ∧
      (3 ≤ v.toNat → t = s) ∧ (v.toNat < 3 → ∀ k, assocGet 0 t.cccfg k =
        if k = cluster then v.toNat else assocGet 0 (s.cccfg.filter (fun e => e.1 != cluster)) k)) ∧
  (∀ off s v, s.powered = true → 5 ≤ s.stage → off < 65536 →
    EventGives (.doorbellWrite off v) s { s with doorbells := s.doorbells ++ [(off, v)] })

/-! ### The fabric -/

/-- A round of a job that spans devices (R258, R259, R283, R304, R305): this round and the one before it find the job complete
where every packet sent has been received in both, their counts agree and every count is zero; job-level joins are over
then. They release the launches of a phase below which neither round counts a launch, with every packet received. A round
concludes where the job is complete, if a join waits for that, and every phase that it asks about is open. -/
def Sys2Proof.Machine.RoundsFindTermination : Prop :=
  ∀ job cs p,
    let j := getJob p job
    let q := afterRound job cs p
    let received := ∃ old, j.lastRound = some old ∧ allReceived j.ranks cs = true ∧ allReceived j.ranks old.counts = true
    let ended := received ∧ (∃ old, j.lastRound = some old ∧ sameCounts old.counts cs = true) ∧ ∀ c ∈ cs, c.count = 0
    let opened (n : Nat) := received ∧ phaseClear cs n = true ∧
      ∃ old, j.lastRound = some old ∧ phaseClear old.counts n = true
    (∃ b, (getJob q job).lastRound = some { counts := cs, concluded := b } ∧
      (b = true ↔ (ended ∨ ∀ c ∈ cs, c.joins = false) ∧ ∀ c ∈ cs, ∀ e ∈ c.phases, opened e.1)) ∧
    (j.lastRound = none → q = setJob p (getJob q job) ∧ getJob q job = { j with lastRound := (getJob q job).lastRound }) ∧
    ((getJob q job).complete = true ↔ j.complete = true ∨ ended) ∧
    (ended → ∀ h ∈ q.hostJoins, h.job = job → h.ofJob = true → h.final ≠ none) ∧
    (¬ ended → q.hostJoins = p.hostJoins) ∧
    ∀ l, l ∈ q.launches ↔ ∃ k ∈ p.launches,
      (k.job = job ∧ opened (recPhase k.record) ∧ l = { k with released := true }) ∨
      (¬ (k.job = job ∧ opened (recPhase k.record)) ∧ l = k)

/-- The end of a collective on one die (R243, R302): its timeline there reaches its number, and the clusters of its job keep no
line of DRAM. -/
def Sys2Proof.Machine.CollectivesAdvanceTheirTimeline : Prop :=
  ∀ part s c, part < 4 → c.gl < 8 →
    let j := getJob (getPart s part) c.job
    let t := endColl part s c
    let k := getJob (getPart t part) c.job
    (glAt k c.die c.gl = if c.die < j.gl.length then c.num else 0) ∧
    (∀ d g, (d ≠ c.die ∨ g ≠ c.gl) → g < 8 → glAt k d g = glAt j d g) ∧
    (∀ x, x ∈ (getPart t part).colls ↔ x ∈ (getPart s part).colls ∧
      ¬ (x.job = c.job ∧ x.gl = c.gl ∧ x.num = c.num ∧ x.die = c.die)) ∧
    (∀ u ∈ allUnits t, u.part = part → jobOf s u = c.job → u.cache = []) ∧ t.mem = s.mem

/-- The end of a collective writes its status word at STAT of every local member, but where STAT faults with the member's unit
gone; the model suspends the collective where STAT faults at a unit that is there (R302, R303; log entry 26). -/
def Sys2Proof.Machine.StatusGoesToEveryMember : Prop :=
  (∀ part s, statStores part [] s = .ok ([], s)) ∧
  (∀ part m c team s,
    let one := atColl c (collStore part c (collDesc c.desc).stat 8 [(0, 2 ^ 63 + c.code % 128 * 2 ^ 56 + c.chunk % 2 ^ 32)]) s
    (∀ f, one = .error f → unitAt s c.uid = none → statStores part ((m, c) :: team) s = statStores part team s) ∧
    (∀ f u, one = .error f → unitAt s c.uid = some u → statStores part ((m, c) :: team) s = .error (c, f)) ∧
    (∀ ws s1 rest t, one = .ok (ws, s1) → statStores part team s1 = .ok (rest, t) →
      statStores part ((m, c) :: team) s = .ok ((c, ws) :: rest, t))) ∧
  (∀ part team s ws t, statStores part team (releaseTeam team s) = .ok (ws, t) →
    finishTeam part team s = (team.map (fun e => e.2)).foldl (endColl part) (ws.foldl (fun s e => collWrite e.1 e.2 s) t))

/-- A device leaves a cancelled job: its collectives are over with code 3, the ones it issues later too (R303). One that issues
belongs to the die that its command names (log entry 46). -/
def Sys2Proof.Machine.CancelledJobsLoseCollectives : Prop :=
  (∀ part job s, part < 4 → let t := loseColls part job s
    (getPart t part).colls = (getPart s part).colls.map (fun c =>
      if c.job = job then { c with running := true, code := 3 } else c) ∧
    (∀ u ∈ allUnits t, u.part = part → jobOf s u = job → u.gsusp = Vector.replicate 8 none) ∧ t.mem = s.mem) ∧
  (∀ s gl desc die slot, s.u.part < 4 → ∃ c, (getPart (issueColl s gl desc die slot) s.u.part).colls = (myPart s).colls ++ [c] ∧
    c.desc = desc ∧ c.die = die ∧ ((getJob (myPart s) (myJobId s)).canc = true → c.running = true ∧ c.code = 3) ∧
    ((getJob (myPart s) (myJobId s)).canc = false → c.running = false ∧ c.code = 0))

/-- A data fault of a collective stands as the suspension of its timeline at the unit that issued it, to be taken by the issuing
thread (R303); a member whose unit is gone counts as lost. -/
def Sys2Proof.Machine.CollectiveFaultsSuspend : Prop :=
  ∀ part team c f s, InPlace s →
    (∀ u, unitAt s c.uid = some u → (∃ t ∈ u.threads, t.live = true) → ∀ h : c.gl < 8, ∃ v,
      unitAt (suspendColl part team c f s) c.uid = some v ∧
      v = { u with gsusp := u.gsusp.set c.gl (some (suspendFor f (16 + c.gl) c.slot)) h } ∧
      (suspendColl part team c f s).parts = s.parts ∧ (suspendColl part team c f s).mem = s.mem) ∧
    (unitAt s c.uid = none → suspendColl part team c f s = mapTeam part team (fun x => { x with code := 3 }) s)

/-- A packet that is discarded or accepted counts as received from its rank, once, and nothing else changes (R286, R304). -/
def Sys2Proof.Machine.PacketsAreCounted : Prop :=
  ∀ part k s, part < 4 →
    let j := getJob (getPart s part) k.job
    let t := countPacket part k s
    let i := getJob (getPart t part) k.job
    (∀ r, assocGet 0 i.recvd r = if r = k.src then assocGet 0 j.recvd r + 1 else assocGet 0 j.recvd r) ∧
    i = { j with recvd := i.recvd } ∧ (∀ n, n ≠ k.job → getJob (getPart t part) n = getJob (getPart s part) n) ∧
    t = setPart s part { getPart s part with jobs := (getPart t part).jobs }

/-- Under ARR a subtree folds each of its children once, in some order (R299). -/
def Sys2Proof.Machine.ArrivalOrdersAreOrders : Prop :=
  ∀ order (g : List Sub), g.Pairwise (fun x y => x.lead ≠ y.lead) → (byArrival order g).Perm g

/-- Groups, collectives, packets, termination and cancellation (R286, R298 to R306): a group is registered; a collective that
every local and remote member has issued runs, with code 2 where the descriptors disagree; each chunk is computed whole or
suspended; its end writes its status and advances its timelines on every die; patience and a lost member end it with codes 1
and 3, and so does the cancelling of its job. A packet waits in the queue and becomes a launch, or is discarded, and counts
as received then; a round decides termination. Members on one device reduce in the order of their ranks (R299). The model's
choices in it: the port that a fabric event names is free (log entry 5), when a packet counts and a round concludes (log
entry 11), when a collective's chunks and its end come (log entry 13), a data fault of a collective suspends it and a
cancelled job's collectives end as they do (log entry 26), and a job's ranks are those of its groups and its own (log entry
27); a collective belongs to the die on which it was executed (log entry 46). -/
def Obligations.FabricEventsComplete : Prop :=
  Sys2Proof.Machine.RoundsFindTermination ∧ Sys2Proof.Machine.CollectivesAdvanceTheirTimeline ∧
  Sys2Proof.Machine.StatusGoesToEveryMember ∧ Sys2Proof.Machine.CancelledJobsLoseCollectives ∧
  Sys2Proof.Machine.CollectiveFaultsSuspend ∧ Sys2Proof.Machine.PacketsAreCounted ∧
  Sys2Proof.Machine.ArrivalOrdersAreOrders ∧
  (∀ part job num own members devices s, PackageUp s → hasPart s part = true → num ≤ 255 → members ≠ [] →
    members.length ≤ 4096 →
    ∃ t, EventGives (.groupRegistration part job num ⟨own, members, devices⟩) s t ∧
      (∀ e, e ∈ (getJob (getPart t part) job).devices ↔ e ∈ devices ∨
        (e ∈ (getJob (getPart s part) job).devices ∧ ∀ x ∈ devices, x.1 ≠ e.1)) ∧
      groupOf (getJob (getPart t part) job) num = some members ∧ (getJob (getPart t part) job).rank = own ∧
      (∀ r, r ∈ (getJob (getPart t part) job).ranks ↔ r = own ∨ (∃ m ∈ members, m.rank = r) ∨
        (r ∈ (getJob (getPart s part) job).ranks ∧ r ≠ (getJob (getPart s part) job).rank)) ∧
      (∀ k, k ≠ num → groupOf (getJob (getPart t part) job) k = groupOf (getJob (getPart s part) job) k) ∧
      t = setPart s part (getPart t part) ∧ (getPart t part).launches = (getPart s part).launches) ∧
  (∀ part job gl remote s c team, PackageUp s →
    let p := getPart s part
    findTeam p job gl (fun c => !c.running) = some (c, team) →
    (∀ k ∈ remoteRanks p c, ∃ r ∈ remote, r.member = k) →
    let descs := team.map (fun e => e.2.desc) ++
      (remote.filter (fun r => (remoteRanks p c).contains r.member)).map (fun r => r.desc)
    EventGives (.collectiveMatch part job gl remote) s (mapTeam part team (fun x => { x with
      since := s.time, running := true,
      code := if ∃ e ∈ team, e.2.code = 3 then 3
        else if ∀ d ∈ descs, agreeing d = agreeing c.desc then 0 else 2 }) s)) ∧
  (∀ part job gl remote order s c team, PackageUp s →
    let p := getPart s part
    findTeam p job gl (fun c => c.running && c.code == 0 &&
      decide (c.chunk < (collDesc c.desc).chunks (collMembers p c).length)) = some (c, team) →
    teamHeld s team = false → (∀ k ∈ remoteRanks p c, ∃ r ∈ remote, r.member = k) →
    let others := remote.filter (fun r => (remoteRanks p c).contains r.member)
    let s0 := releaseTeam team s
    (∀ s1, runChunk part c team others order s0 = .ok s1 → EventGives (.collectiveChunkFinal part job gl remote order) s
      (mapTeam part team (fun x => { x with since := s.time, chunk := x.chunk + 1 }) s1)) ∧
    (∀ x f, runChunk part c team others order s0 = .error (x, f) →
      EventGives (.collectiveChunkFinal part job gl remote order) s (suspendColl part team x f s0))) ∧
  (∀ part job gl s c team, PackageUp s →
    let p := getPart s part
    (findTeam p job gl (fun c => c.running && (c.code != 0 ||
      c.chunk == (collDesc c.desc).chunks (collMembers p c).length)) = some (c, team) → teamHeld s team = false →
      EventGives (.collectiveComplete part job gl) s (finishTeam part (withCode c.code team) s)) ∧
    (findTeam p job gl (fun c => c.running && (c.code != 0 ||
      c.chunk == (collDesc c.desc).chunks (collMembers p c).length)) = none → lostTeam p job gl = some team →
      teamHeld s team = false → EventGives (.collectiveComplete part job gl) s (finishTeam part (withCode 3 team) s)) ∧
    (findTeam p job gl (fun c => c.running && c.code == 0) = some (c, team) → teamHeld s team = false →
      patienceOver s part c = true → EventGives (.collectivePatienceExpiry part job gl) s
        (finishTeam part (withCode 1 team)
          (mapTeam part team (fun x => { x with code := 1 }) (fabricEventAny part 4 job s)))) ∧
    (p.colls.find? (fun c => c.job == job && c.gl == gl) = some c →
      let team := issuedTeam p c
      teamHeld s team = false → EventGives (.collectiveMemberLost part job gl) s
        (finishTeam part (withCode 3 team) (mapTeam part team (fun x => { x with running := true, code := 3 }) s)))) ∧
  (∀ d order resid (x : Sub) (xs : List Sub), d.policy = 0 → d.arr = false → (∀ y ∈ xs, sameAt 0 x.at_ y.at_ = true) →
    reduceTree d order resid (x :: xs) = (foldVecs d ((x :: xs).map (fun y => y.vals)), [])) ∧
  (∀ part k s, PackageUp s → hasPart s part = true →
    ((getJob (getPart s part) k.job).canc = true → EventGives (.xsendPacketArrival part k) s (countPacket part k s)) ∧
    ((getJob (getPart s part) k.job).canc = false →
      EventGives (.xsendPacketArrival part k) s (mapPart s part (fun p => { p with packets := p.packets ++ [k] })))) ∧
  (∀ part n s k, PackageUp s →
    let p := getPart s part
    let j := getJob p k.job
    let s1 := countPacket part k (mapPart s part (fun p => { p with packets := p.packets.eraseIdx n }))
    p.packets[n]? = some k → (∀ m x, m < n → p.packets[m]? = some x → x.job ≠ k.job) →
    (j.canc = true → EventGives (.xsendLaunchAccept part n) s s1) ∧
    (j.canc = false → recordUnplaceable s part k.job k.bytes = true →
      EventGives (.xsendLaunchAccept part n) s (fabricEventAny part 6 k.job s1)) ∧
    (j.canc = false → recordUnplaceable s part k.job k.bytes = false → j.valid = true → refusal p k.job = none →
      EventGives (.xsendLaunchAccept part n) s (acceptLaunch part k.job k.bytes (.outside k.depth 0) s1).2)) ∧
  (∀ part job remote s, PackageUp s → hasPart s part = true →
    let p := getPart s part
    let j := getJob p job
    let counts := localCount p j (askedPhases p job remote) :: remote
    (∃ x ∈ p.jobs, x.id = job) → remote.map (fun c => c.rank) = j.ranks.filter (fun r => r != j.rank) →
    ((∃ c ∈ counts, (c.joins = true ∧ c.count = 0) ∨ c.phases ≠ []) ∨
      ∃ r, j.lastRound = some r ∧ r.concluded = false) →
    EventGives (.terminationRound part job remote) s (setPart s part (afterRound job counts p))) ∧
  (∀ part job s, PackageUp s → hasPart s part = true →
    let t := cancelJob part job s
    EventGives (.jobCancelMessage part job) s t ∧
      (((getPart s part).launches.map (fun l => l.entry)).Nodup → (getJob (getPart t part) job).canc = true ∧
        (∀ l ∈ (getPart t part).launches, l.job = job → l.canc = true) ∧
        (getPart t part).cancelOut = (getPart s part).cancelOut))

/-! ### Ports -/

/-- A port under a new session key (R293): the key epoch counts, and the flits of the retry window are sent again under it. -/
def Sys2Proof.Machine.underNewKey (p : Port) : Port :=
  let q := { p with keyep := (p.keyep + 1) % 256, keyed := p.window.length, tagFails := 0 }
  if p.window = [] then q
  else { q with
    state := 4, retries := min (p.retries + p.window.length) 0xFFFF
    window := p.window.map (fun w => { w with sends := w.sends + 1 }) }

/-- The ports' states, retry windows and keys (R292, R293, R295): each cause of the table changes the port as it says, with
its fabric event where it has one; a session presents a report, and a re-agreement, without which no flit goes out after 2^32
under one key, sends the window again; flits of 256 bytes arrive in sequence; each flit of the window is sent at most 16
times and leaves it once it is acknowledged; a port that fails keeps its unacknowledged flits, or another port to the same
peer takes those that its window and its key have room for, under the numbers that they have; PEER is the peer's rank in the
job (R294). How retrainings, resent and moved flits count, and what TIER and HALF are in training, is the model's choice (log
entry 28), and so are the devices that hold a job's ranks (log entry 27). -/
def Obligations.PortsChangeState : Prop :=
  (∀ n s, PackageUp s → n < 16 →
    let p := getPort s n
    let up := p.state = 3 ∨ p.state = 4
    (p.state = 0 → EventGives (.portEnable n) s
      (setPort n { p with state := 1, retrains := if p.retrains = 0 then 0 else p.retrains + 1 } s)) ∧
    (p.state = 1 → EventGives (.lanesTrained n) s (setPort n { p with state := 2 } s)) ∧
    (∀ peer tier rtt pub, p.state = 2 → 1 ≤ tier → tier ≤ 3 →
      let q := { p with
        state := 3, peer := some peer, tier := tier, rtt := rtt, retries := 0, retrains := 0
        window := p.window.map (fun w => { w with sends := 0 }) }
      EventGives (.keyAgreed ⟨n, pub⟩ peer tier rtt) s (setPort n (underNewKey q)
        (fabricEvent p.part 3 n 0xFFFF (setPort n { q with keyep := (p.keyep + 1) % 256 } (sessionReport p.part pub s))))) ∧
    (∀ pub, p.state = 2 → EventGives (.peerAttestationFailure ⟨n, pub⟩) s
      (fabricEvent p.part 5 n 0xFFFF (setPort n { p with state := 0, tier := 0 }
        (let s1 := sessionReport p.part pub s
        if 3 ≤ p.retrains then { s1 with flash := Flash.sealed { s1.flash with repl := true } } else s1)))) ∧
    (∀ f, up → f.bytes.length = 256 →
      (f.tagOk = false → p.tagFails < 2 → EventGives (.flitReceive n f) s
        (setPort n { p with tagFails := p.tagFails + 1 } s)) ∧
      (f.tagOk = false → 2 ≤ p.tagFails → EventGives (.flitReceive n f) s
        (failPort n (setPort n { p with tagFails := p.tagFails + 1 } s))) ∧
      (f.tagOk = true →
        let k := f.via.getD n
        (k < 16 → f.seq = (getPort s k).rxSeq → ∃ t, EventGives (.flitReceive n f) s t ∧ t = { s with ports := t.ports } ∧
          ∀ m, m < 16 → getPort t m =
            (let q := getPort s m
             let q1 := if m = k then { q with rxSeq := q.rxSeq + 1 } else q
             if m = n then { q1 with tagFails := 0, received := q1.received ++ [f] } else q1)) ∧
        (16 ≤ k ∨ f.seq ≠ (getPort s k).rxSeq → EventGives (.flitReceive n f) s (setPort n { p with tagFails := 0 } s)))) ∧
    (∀ w via seq, up → w ∈ p.window → via = w.flit.via.getD n → seq = w.flit.seq → w.sends < 16 → p.keyed < 2 ^ 32 →
      EventGives (.flitResend ⟨n, via, seq⟩) s (setPort n { p with
        state := 4, retries := min (p.retries + 1) 0xFFFF, keyed := p.keyed + 1
        window := p.window.map (fun v =>
          if v.flit.via.getD n = via ∧ v.flit.seq = seq then { v with sends := v.sends + 1 } else v) } s)) ∧
    (∀ flits, up →
      let left := p.window.filter (fun w => !flits.contains (w.flit.via.getD n, w.flit.seq))
      (left ≠ [] ∨ p.state = 3 → EventGives (.retryWindowAcknowledged ⟨n, flits⟩) s (setPort n { p with window := left } s)) ∧
      (left = [] → p.state = 4 → EventGives (.retryWindowAcknowledged ⟨n, flits⟩) s
        (setPort n { p with state := 3, window := [], retries := 0 } s))) ∧
    (∀ pub, up → 2 ^ 32 ≤ p.keyed → (∀ w ∈ p.window, w.sends < 16) → EventGives (.keyReagreement ⟨n, pub⟩) s
      (setPort n (underNewKey p) (sessionReport p.part pub s))) ∧
    (up → EventGives (.persistentLaneFailure n) s (fabricEvent p.part 2 n 0xFFFF (setPort n { p with half := true } s))) ∧
    (up → (∃ w ∈ p.window, 16 ≤ w.sends) ∨ 3 ≤ p.tagFails → EventGives (.linkFailure n) s (failPort n s)) ∧
    (p.state = 5 → EventGives (.portRetrain n) s
      (setPort n { p with state := 1, retrains := p.retrains + 1, tagFails := 0 } s))) ∧
  (∀ n s, n < 16 → (getPort (failPort n s) n).state = 5 ∧
    (∀ w ∈ (getPort s n).window, ∃ m v, m < 16 ∧ v ∈ (getPort (failPort n s) m).window ∧
      (v = w ∨ v.flit = { w.flit with via := some (w.flit.via.getD n) } ∧ v.sends = 1)) ∧
    ∀ m, m < 16 → (getPort (failPort n s) m).window.length ≤ max (windowSize s m) (getPort s m).window.length ∧
      (getPort (failPort n s) m).keyed ≤ max (2 ^ 32) (getPort s m).keyed) ∧
  (∀ s job n d, (getPort s n).peer = some d →
    let p := getPart s (getPort s n).part
    (∀ r, (getJob p job).rankOf d = some r → r < 65536 → bitsAt (lnkstatWord s job n).toNat 48 16 = r) ∧
    ((getJob p job).rankOf d = none → (∀ j ∈ p.jobs, j.valid = true → j.rankOf d = none) →
      bitsAt (lnkstatWord s job n).toNat 48 16 = 0xFFFF)) ∧
  (∀ part pub s, ∃ r, sessionReport part pub s = { s with attSeq := s.attSeq + 1, reports := s.reports ++ [r] } ∧
    fieldAt r 0 4 = 1 ∧ fieldAt r 8 8 = (s.attSeq + 1) % 2 ^ 64 ∧ fieldAt r 16 4 = partcfg s part % 2 ^ 32 ∧
    fieldAt r 20 2 = 0xFFFF ∧ (r.drop 24).take 32 = (sha512 pub).take 32)

/-! ### Storage -/

/-- Retired lanes and frames (R341 to R343): flash keeps what is retired, and the journal of its partition says so once; nothing
that is retired already changes; REPL, once set, stays, and is set where a die has 16 retired lanes or 4,096 retired frames.
A thread context that still uses the spare slice of the lane's core is switched out: which contexts do is the model's choice
(log entry 16). -/
def Sys2Proof.Machine.RetirementIsKept : Prop :=
  (∀ part core lane s, let t := retireLane part core lane s
    ((core, lane) ∈ s.flash.lanes → t = s) ∧
    ((core, lane) ∉ s.flash.lanes → t.flash.lanes = s.flash.lanes ++ [(core, lane)] ∧ t.flash.frames = s.flash.frames ∧
      (s.flash.repl = true → t.flash.repl = true) ∧ t.flash.tags = t.flash.due ∧
      (16 ≤ (t.flash.lanes.filter (fun l => l.1 / 128 == core / 128)).length → core < 512 → t.flash.repl = true) ∧
      t = (((allUnits s).filter (usesSpare s core)).map (fun u => u.uid)).foldl (switchOut false)
        (journal { s with flash := t.flash } part 8 1 0xFFFF 0 (leBytes 2 core ++ leBytes 1 lane)))) ∧
  (∀ pa s, isDramAddr pa = true → let t := retireFrame pa s
    let n := pa / 65536
    (n ∈ s.flash.frames → t = s) ∧
    (n ∉ s.flash.frames → t.flash.frames = s.flash.frames ++ [n] ∧ t.flash.lanes = s.flash.lanes ∧
      (s.flash.repl = true → t.flash.repl = true) ∧ t.flash.tags = t.flash.due ∧
      (4096 ≤ (t.flash.frames.filter (fun k => k / 2 ^ 28 == pa / 2 ^ 44)).length → t.flash.repl = true) ∧
      t = journal { s with flash := t.flash } (partOfAddr s pa) 8 2 0xFFFF 0 (leBytes 8 (65536 * n)))) ∧
  (∀ s u core, usesSpare s core u = true → u.cluster.isSome = true ∧ ∃ t ∈ u.threads, t.live = true ∧ t.slot < 8)

/-- A thread whose register slice is lost with its shadow (R341): its registers hold free values (log entry 5), in the lengths
that they had, in the registers and the checkpoint alike, and no byte of memory changes. -/
def Sys2Proof.Machine.LostRegistersAreFree : Prop :=
  ∀ s, let t := loseState s
    let a := t.t.arch
    SameBytes s t ∧ a.v.length = s.t.arch.v.length ∧ (∀ r ∈ a.v, r < 2 ^ regbits s) ∧
      (∀ r ∈ a.p.toList, r < 2 ^ vlmax s) ∧
      a = { s.t.arch with x := a.x, v := a.v, p := a.p, fn := a.fn, vfill := a.vfill, seed := a.seed } ∧
      t.t = { s.t with arch := a, ckpt := { a with pc := s.t.ckpt.pc, vp := s.t.ckpt.vp } } ∧
      t = { s with t := t.t, freeCtr := t.freeCtr }

/-- Lines at the ports and storage errors (R317, R341 to R344, R355): a write that a port may make changes its bytes alone; a
line leaves marked poisoned, and journalled, where its read would fail, an Isapel port's in a flit of 256 bytes; the
sixteenth corrected error of a register slice within 2^30 cycles and the eighth of a frame retire them; an uncorrectable
error of a register slice rolls back the strip of the thread whose registers lie there and retires the slice, and of a DRAM
line poisons the line and retires its frame. What lost registers and the rest of a flit hold is free (log entries 5, 28),
which contexts leave a core whose lane is retired and what HEALTH counts are choices (log entry 16), and so is what a trap
does with a VP block (log entry 31). -/
def Obligations.StorageErrorsRetireAndPoison : Prop :=
  Sys2Proof.Machine.RetirementIsKept ∧ Sys2Proof.Machine.LostRegistersAreFree ∧
  (∀ port pa bytes s, PackageUp s → CanonicalMemory s → bytes ≠ [] →
    (∀ i, i < bytes.length → isDramAddr (pa + i) = true ∧
      (port < 16 → ((getPort s port).state = 3 ∨ (getPort s port).state = 4) ∧
        (getPort s port).part = partOfAddr s (pa + i)) ∧
      (16 ≤ port → port < 20 ∧ (port - 16, (pa + i) / 65536) ∈ s.ioMap)) →
    ∃ t, EventGives (.ingressWrite ⟨port, pa⟩ bytes) s t ∧ t.parts = s.parts ∧ t.ports = s.ports ∧
      ∀ a, Memory.read t.mem a = if pa ≤ a ∧ a < pa + bytes.length then bytes.getD (a - pa) 0 else Memory.read s.mem a) ∧
  (∀ port pa s, PackageUp s → portReaches s port pa = true →
    let p := getPort s port
    let bad := (lineError s pa).isSome
    let s1 := if bad then journal s (partOfAddr s pa) 8 3 0xFFFF 0 (leBytes 8 (64 * (pa / 64))) else s
    (port < 16 → p.window.length < windowSize s port → p.keyed < 2 ^ 32 → ∃ t f k, EventGives (.egressLine port pa) s t ∧
      (let s2 := { s1 with freeCtr := t.freeCtr }
       let q := { p with
         window := p.window ++ [{ flit := f, sends := 1, slot := k }], txSeq := p.txSeq + 1, keyed := p.keyed + 1 }
       t = if longHaul s port then setPort port q (deviceWrite (retryBase s port + 256 * k) f.bytes s2)
         else setPort port q s2) ∧
      (longHaul s port = true → k < 2097152 ∧ ∀ w ∈ p.window, w.slot ≠ k) ∧
      f.seq = p.txSeq ∧ f.via = none ∧ f.tagOk = true ∧ f.poisoned = bad ∧ f.bytes.length = 256 ∧
      f.bytes.take 64 = Memory.readN s.mem (64 * (pa / 64)) 64) ∧
    (16 ≤ port → EventGives (.egressLine port pa) s s1)) ∧
  (∀ die core s, PackageUp s → die < 4 → ∃ t, EventGives (.sramCorrectedError die core none) s t ∧
    (getDie t die).corr = min ((getDie s die).corr + 1) 0xFFFFFFFF ∧ t = { s with dies := t.dies } ∧
    (∀ d, d ≠ die → getDie t d = getDie s d) ∧
    ∀ lane, core / 128 = die → lane < 64 →
      let mine := (s.laneErrors.filter (fun e => e.1 == (core, lane) && decide (e.2 ≤ 10 * 2 ^ 30))) ++ [((core, lane), 0)]
      let s1 := { t with laneErrors := s.laneErrors.filter (fun e => e.1 != (core, lane)) ++ mine }
      EventGives (.sramCorrectedError die core (some lane)) s
        (if 16 ≤ mine.length then retireLane (partOfDie s.config die) core lane s1 else s1)) ∧
  (∀ core lane shadowOk s, PackageUp s → core < 512 → lane < 64 →
    let e := Instr.sramUncorrectableError core lane shadowOk
    let holds (s1 : State) : Prop := s1.t.live = true ∧ s1.t.slot < 8 ∧ s1.u.cluster.isSome = true ∧ s1.t.away = false ∧
      s1.t.wait ≠ .start ∧ myCore s1 = core ∧ inShare s1 s1.t.own lane = true
    ((∀ u ∈ allUnits s, ∀ r ∈ u.threads, ∀ s1, focus ⟨u.uid, r.slot⟩ s = some s1 → ¬ holds s1) →
      EventGives e s (retireLane (partOfDie s.config (core / 128)) core lane s)) ∧
    ((∃ u ∈ allUnits s, ∃ r ∈ u.threads, ∃ s1, focus ⟨u.uid, r.slot⟩ s = some s1 ∧ holds s1) →
      ∃ i s1, focus i s = some s1 ∧ holds s1 ∧ EventOfThread e s (fun x => ∃ y,
        RolledBack s1 y { code := 0x15, sub := 0, telem := lane, tval := BitVec.ofNat 64 ((if shadowOk then
          0xFFFFFFFFFFFFFF00 else 0xFFFFFFFFFFFFFE00) + lane) } ∧
        x = retireLane s1.u.part core lane (if shadowOk then y else loseState y)))) ∧
  (∀ pa s, PackageUp s → isDramAddr pa = true →
    let n := assocGet 0 s.frameErrors (pa / 65536) + 1
    let s1 := countCorr (pa / 2 ^ 44) { s with frameErrors := assocSet s.frameErrors (pa / 65536) n }
    EventGives (.dramCorrectedError pa) s (if 8 ≤ n then retireFrame pa s1 else s1)) ∧
  (∀ pa s, PackageUp s → isDramAddr pa = true →
    EventGives (.dramUncorrectableError pa) s
      (retireFrame pa (if pa / 64 ∈ s.poison then s else { s with poison := pa / 64 :: s.poison })))

/-! ### The package -/

/-- The stages of bring-up (R353): each begins as the one before it succeeds and writes its number, and a failure halts the
package at its stage. Stage 1 takes image A, or B where A's signature over its SHA-512 fails under the public key of the
fuses; stages 2, 3 and 6 measure the firmware that then runs (R322), and stage 3 verifies the compute dies'; stage 4 takes
flash's records, one whose tag fails as empty with REPL set and every lane and frame tested again, and tags them (R3); stage
5 gives the partitions of the flash configuration their registers, journals and ports; after stage 6 the package is up. What
a signature and a tag cover is the model's choice (log entry 3). -/
def Sys2Proof.Machine.StagesBringThePackageUp : Prop :=
  ∀ s b rest, s.powered = true → s.bootFail = false → s.boot = some b →
    ∀ s0, ((s.agenda = .boot :: rest ∧ s0 = { s with agenda := rest }) ∨ (s.agenda = [] ∧ s.stage < 7 ∧ s0 = s)) →
    let halts := step s = .next { s0 with bootFail := true }
    let image := if s.image = 0 then s.flash.imageA else s.flash.imageB
    let signed (i : FwImage) := edVerify s.fuseKey (sha512 (i.app ++ i.comp ++ i.compSig ++ i.ran)) i.sig
    let signedComp (i : FwImage) := edVerify s.fuseKey (sha512 i.comp) i.compSig
    (s.stage = 1 → signed s.flash.imageA = true → step s = .next { s0 with stage := 2, image := 0 }) ∧
    (s.stage = 1 → signed s.flash.imageA = false → signed s.flash.imageB = true →
      step s = .next { s0 with stage := 2, image := 1 }) ∧
    (s.stage = 1 → signed s.flash.imageA = false → signed s.flash.imageB = false → halts) ∧
    (s.stage = 2 → b.appFwOk = true → step s = .next { s0 with stage := 3, mapp := sha512 image.app }) ∧
    (s.stage = 2 → b.appFwOk = false → halts) ∧
    (s.stage = 3 → b.diesOk = true → signedComp image = true →
      step s = .next { s0 with stage := 4, mcomp := sha512 image.comp }) ∧
    (s.stage = 3 → b.diesOk = false ∨ signedComp image = false → halts) ∧
    (s.stage = 4 → b.dramOk = true → ∃ f, step s = .next { s0 with stage := 5, flash := f } ∧
      f.imageA = s.flash.imageA ∧ f.imageB = s.flash.imageB ∧
      f.tags = f.due ∧
      (s.flash.tags = s.flash.due → s.flash.lanes.Nodup → s.flash.frames.Nodup → f.config = s.flash.config ∧
        f.lanes = s.flash.lanes ∧ f.frames = s.flash.frames ∧ (s.flash.repl = true → f.repl = true)) ∧
      (s.flash.tags ≠ s.flash.due → f.repl = true ∧
        f.config = (if s.flash.tags.config = s.flash.due.config then s.flash.config else 0) ∧
        (∀ l, l ∈ f.lanes ↔ (s.flash.tags.lanes = s.flash.due.lanes ∧ l ∈ s.flash.lanes) ∨ l ∈ b.badLanes) ∧
        ∀ n, n ∈ f.frames ↔ (s.flash.tags.frames = s.flash.due.frames ∧ n ∈ s.flash.frames) ∨ n ∈ b.badFrames)) ∧
    (s.stage = 4 → b.dramOk = false → halts) ∧
    (s.stage = 5 → b.placedOk = true → ∃ t, step s = .next t ∧ t.config = s.flash.config ∧ t.capptr = 0x040 ∧
      t = { s0 with stage := 6, config := t.config, capptr := t.capptr, parts := t.parts, ports := t.ports } ∧
      (∀ n, n < 4 → getPart t n = { PartState.reset with jrnBase := b.jrnBase.getD n 0 % 2 ^ 30 }) ∧
      ∀ n, n < 16 → getPort t n = { Port.down with part := partOfDie s.flash.config (b.ports.getD n 0) }) ∧
    (s.stage = 5 → b.placedOk = false → halts) ∧
    (s.stage = 6 → b.ranistamOk = true → step s = .next { s0 with stage := 7, mran := sha512 image.ran, boot := none }) ∧
    (s.stage = 6 → b.ranistamOk = false → halts)

/-- Without power nothing is kept but flash and the fuses (R3, R349): every register is at its reset value and no byte of
memory is listed, which is the model's choice (log entry 2). -/
def Sys2Proof.Machine.LostPower (s t : State) : Prop :=
  t = { State.reset with
    powered := t.powered, stage := t.stage, boot := t.boot, flash := s.flash, fuseKey := s.fuseKey, freeCtr := s.freeCtr
    agenda := s.agenda, nextUid := s.nextUid }

/-- Partition changes (R319): refused while a unit stands on a die that moves, or a launch of a moving die's partition is
left. A partition that was there goes on without the translations that moving dies hold; one that is made or ended starts from
reset registers. Each that has changed goes on with an entry of kind 3. The DRAM of the dies that move is zeroed, and the
retry buffers of long-haul ports that move, and no other byte or thread changes. What a new partition keeps, where a port goes
and which pages stay mapped for devices are the model's choices (log entry 29). -/
def Sys2Proof.Machine.PartitionsChange : Prop :=
  ∀ config ports s, PackageUp s → config ≤ 4 →
    let dies := (List.range 4).filter (fun d => partOfDie s.config d != partOfDie config d)
    let changed (n : Nat) : Prop := ∃ d ∈ dies, n = partOfDie s.config d ∨ n = partOfDie config d
    let gone (m : Nat) : Prop := m < 16 ∧ longHaul s m = true ∧ ports.getD m 0 ≠ (getPort s m).part
    dies ≠ [] → ports.length = 16 →
    (∀ n, n < 16 → (changed (getPort s n).part → changed (ports.getD n 0) ∧ diesOf config (ports.getD n 0) ≠ []) ∧
      (¬ changed (getPort s n).part → ports.getD n 0 = (getPort s n).part)) →
    (∀ u ∈ allUnits s, ∀ c, u.cluster = some c → c / 32 ∉ dies) →
    (∀ d ∈ dies, (getPart s (partOfDie s.config d)).launches = []) →
    ∃ t, EventGives (.partitionChange ⟨config, ports⟩) s t ∧ t.config = config ∧ t.flash = Flash.sealed { s.flash with config := config } ∧
      (∀ n, n < 4 →
        let p := getPart s n
        let from_ := getPart s (partOfDie s.config n)
        let kept : PartState :=
          if n ∈ dies then
            { PartState.reset with
              jrnBase := p.jrnBase, jrnHead := p.jrnHead, clk := from_.clk, clkAt := from_.clkAt, thr := from_.thr }
          else if diesOf s.config n ≠ [] ∧ diesOf config n ≠ [] then
            { p with tlb := p.tlb.filter (fun e => !e.onDies dies) }
          else p
        (changed n ∧ diesOf config n ≠ [] → getPart t n = { kept with jrnHead := (p.jrnHead + 1) % 2 ^ 64 }) ∧
        (¬ (changed n ∧ diesOf config n ≠ []) → getPart t n = kept)) ∧
      (∀ m, m < 16 → getPort t m =
        if ports.getD m 0 = (getPort s m).part then getPort s m else { Port.down with part := ports.getD m 0 }) ∧
      (∀ e, e ∈ t.ioMap ↔ e ∈ s.ioMap ∧ e.2 / 2 ^ 28 ∉ dies) ∧
      (CanonicalMemory s → ∀ a,
        (∀ n, n < 4 → changed n → diesOf config n ≠ [] →
          let e := (getPart s n).jrnBase * 2 ^ 22 + 64 * ((getPart s n).jrnHead % 65536)
          a < e ∨ e + 64 ≤ a) →
        (a / 2 ^ 44 ∈ dies ∨ (∃ m, gone m ∧ retryBase s m ≤ a ∧ a < retryBase s m + 2 ^ 29) → Memory.read t.mem a = 0) ∧
        (a / 2 ^ 44 ∉ dies → (∀ m, gone m → a < retryBase s m ∨ retryBase s m + 2 ^ 29 ≤ a) →
          Memory.read t.mem a = Memory.read s.mem a)) ∧
      t = { s with
        config := t.config, flash := t.flash, parts := t.parts, ports := t.ports, ioMap := t.ioMap, mem := t.mem
        poison := t.poison, guards := t.guards }

/-- Reports (R321, R322): 408 bytes with the fields of the request, the measurements of the firmware that runs, and the
identity key's signature over the rest; each one counts. The key is an opaque secret (log entry 20). -/
def Sys2Proof.Machine.ReportsAreSigned : Prop :=
  ∀ part job nonce s, PackageUp s → hasPart s part = true → nonce.length = 32 →
    ∃ t r, EventGives (.attestationReport part job nonce) s t ∧
      t = { s with attSeq := s.attSeq + 1, reports := s.reports ++ [r] } ∧
      r = reportBody part job nonce s ++ edSign fuseSecret (reportBody part job nonce s) ∧
      fieldAt r 0 4 = 1 ∧ fieldAt r 8 8 = (s.attSeq + 1) % 2 ^ 64 ∧ fieldAt r 16 4 = partcfg s part % 2 ^ 32 ∧
      fieldAt r 20 2 = job % 65536 ∧ fieldAt r 22 2 = 0 ∧ (r.drop 24).take 32 = nonce ∧
      (r.drop 56).take 32 = identityKey ∧ r.length = 408 ∧
      (s.mapp.length = 64 → (r.drop 88).take 64 = s.mapp) ∧ (s.mcomp.length = 64 → (r.drop 152).take 64 = s.mcomp) ∧
      (s.mran.length = 64 → (r.drop 216).take 64 = s.mran)

/-- Partition changes (R319), attestation (R321), bring-up (R353), rails (R349) and the thermal limits (R350). The model's
choices in it: what memory reads as without power (log entry 2), the values of boot time (log entry 3), when stages and clock
changes come (log entry 4), the identity key
(log entry 20), and what a new partition keeps and where a port goes (log entry 29). -/
def Obligations.PackageEventsComplete : Prop :=
  Sys2Proof.Machine.PartitionsChange ∧ Sys2Proof.Machine.ReportsAreSigned ∧ Sys2Proof.Machine.StagesBringThePackageUp ∧
  (∀ b s, s.powered = false ∨ (s.stage = 0 ∧ s.bootFail = false) → ∃ t, EventGives (.powerOn b) s t ∧ LostPower s t ∧
    t.powered = true ∧ t.stage = 1 ∧ t.boot = some b) ∧
  (∀ rail s, s.powered = true → rail < 15 → ∃ t, EventGives (.railOutOfTolerance rail) s t ∧ LostPower s t ∧
    t.powered = false ∧ t.stage = 0 ∧ t.boot = none) ∧
  (∀ temp s, s.powered = true → 115 ≤ temp → ∃ t, EventGives (.thermalShutdown temp) s t ∧ LostPower s t ∧
    t.powered = false ∧ t.stage = 0 ∧ t.boot = none) ∧
  (∀ part die s, PackageUp s → hasPart s part = true →
    die ∈ diesOf s.config part → (∀ d ∈ diesOf s.config part, (getDie s d).temp ≤ (getDie s die).temp) →
    let p := getPart s part
    (p.thr = 0 ∨ p.clkAt + 1000000 ≤ s.time) →
    let c := p.clk
    let clocked (t : State) (clk fewer : Nat) : Prop :=
      t = setPart s part { p with clk := clk, clkAt := s.time, thr := min (p.thr + fewer) 0xFFFF }
    (95 ≤ (getDie s die).temp → 10 < c →
      ∃ t, EventGives (.clockReduction part die) s t ∧ clocked t (c - 1) 1) ∧
    ((getDie s die).temp < 90 → c < 17 →
      ∃ t, EventGives (.clockRaise part die) s t ∧ clocked t (c + 1) 0))

/-! ### The machine as a whole -/

/-- The machine right after power-on (R32, R169, R182, R257, R278, R297, R315, R345, R350, R353): powered, before the first
stage of bring-up, no thread, no unit, nothing in memory; every partition's registers at the reset values of their maps;
every die at full clock with no error counted; every port down; a job with no registration has a quota of 1; the first
handle of a pool entry carries GEN 1. That memory lists nothing is the model's choice (log entry 2), and so is CAPPTR before
bring-up (log entry 3). -/
def Obligations.ResetLeavesTheMachine : Prop :=
  let s := State.reset
  s.powered = true ∧ s.stage = 0 ∧ s.bootFail = false ∧ s.units = [] ∧ s.t.live = false ∧ s.u.uid = 0 ∧ s.mem = [] ∧
    s.cccfg = [] ∧ s.capptr = 0 ∧ s.attSeq = 0 ∧ s.reports = [] ∧
    (∀ n, n < 4 → (getPart s n).hbcfg = 20 ∧ (getPart s n).fabcfg = 50 ∧ (getPart s n).jobsel = 0 ∧
      (getPart s n).tvecdef = 0 ∧ (getPart s n).jrnHead = 1 ∧ (getPart s n).ctxtbl = 0 ∧ (getDie s n).corr = 0 ∧
      (getPart s n).clk = 17 ∧ (getPart s n).thr = 0 ∧ (getPart s n).adq = 0 ∧ (getPart s n).adqTail = 0 ∧
      (getPart s n).adqHead = 0 ∧ (getPart s n).launches = [] ∧ (getPart s n).quarantine = [] ∧ freeGen (getPart s n) = 1 ∧
      freeEntry (getPart s n) = 0 ∧ ∀ job, (getJob (getPart s n) job).quota = 1 ∧ (getJob (getPart s n) job).valid = false) ∧
    (∀ n, n < 16 → (getPort s n).state = 0 ∧ (getPort s n).retries = 0 ∧ (getPort s n).keyep = 0)

/-- The machine right after power-on has its memories in canonical form. What an unlisted byte of DRAM reads as is the model's
choice (log entry 2). -/
def Obligations.ResetMeetsTheInvariant : Prop := CanonicalMemory State.reset

/-- Every step keeps DRAM and every scratchpad in canonical form: cells in rising order of addresses, and no cell equal to
what an unlisted byte reads as. That an unlisted byte of DRAM reads 0 is the model's choice (log entry 2). -/
def Obligations.EveryStepKeepsTheInvariant : Prop := ∀ s t, CanonicalMemory s → step s = .next t → CanonicalMemory t

/-- Every well-formed instruction has an encoding, a native word or a long form, and decoding gives the instruction back with
every operand (R15, R20 to R23, R29, R40). The rows of the table that have no encoding are events. -/
def Obligations.EncodedInstructionsDecodeBack : Prop :=
  ∀ i, WellFormed i = true → isEvent i = false → ∃ e, encode i = some e ∧ decode e = some i

/-- A step runs the decoded instruction (R20, R43, R332): where a thread that is ready has its turn and its boundary takes
nothing, the word that it sees at its PC, translated for a fetch, decodes to the instruction that executes, and a word that
decodes to none is Illegal instruction: after the commit where it stands in the tile range of an MCC thread (R162), and else
with the strip rolled back. An event of the agenda is executed as it stands. The model's choices in it: which trap such a
word takes (log entry 1), whose turn comes (log entry 4), what a trap does with a VP block (log entry 31), and how a fetch
reads memory (log entry 32). -/
def Obligations.StepRunsTheDecodedInstruction : Prop :=
  (∀ s w s1, fetchWord s = .ok (w, s1) → s.t.arch.pc.toNat % 4 = 0 ∧
    ∃ locs, translateElem s (threadSpace s) .fetch s.t.arch.pc.toNat 4 = .ok (locs, s1) ∧
      decodeWord w = decodeBytes (locs.map (viewByte s1))) ∧
  (∀ s s1 w s2, (∃ i rest, s.agenda = .issue i :: rest ∧ focus i { s with agenda := rest } = some s1) ∨
      (s.agenda = [] ∧ s1 = s) →
    started s = true → ready s1 = true → (atBoundary s1 = true → boundary s1 = none) → fetchWord s1 = .ok (w, s2) →
    let s3 := withWord s2 (w.setWidth 64)
    (∀ i, decodeWord w = some i → step s = exec i s3) ∧
    (decodeWord w = none →
      let c := Cause.of 0x01 (w.setWidth 64) (illegalElem s3)
      let tile := isTileOpc (wordOpc w) = true ∧ s1.t.slot = 8
      ∃ t, step s = .next t ∧ (tile → TrappedAfterCommit s3 t c) ∧ (¬ tile → RolledBack s3 t c))) ∧
  (∀ s e rest, s.agenda = .event e :: rest → isEvent e = true → step s = exec e { s with agenda := rest })

/-- Words that the spec writes out, and the instructions that they stand for. -/
def Sys2Proof.Machine.specWords : List (Nat × Instr) :=
  [(0x00830814, .add { d := 3, a := 4, b := 5 }), (0x0D830815, .fadd { d := 3, a := 4, b := 5, fmt := 1 }),
   (0x40091400, .setvl { d := 9, a := 10 }), (0x41850C1D, .vadd { d := 5, a := 6, b := 7, pred := 1 }),
   (0x62830209, .fnsub { d := 3, a := 1, b := 2, pred := 1 }), (0x65060000, .fnint { d := 6 }), (0x7382142D, .tmm { d := 2, a := 10, b := 11, mod := 1 }),
   (0x80342000, .ld { d := 13, a := 4 }), (0x86084059, .vst { d := 2, a := 8, b := 5, mod := 2, pred := 1 }),
   (0xD9A0C284, .amoadd { d := 3, a := 5, b := 4 }), (0xDC214300, .launch { d := 5, a := 6 }),
   (0xDE62C013, .sysrd { d := 11, c := 0x13, imm := true }), (0xDEE00280, .svc { a := 5 }),
   (0xE1008180, .dictionaryWord 8 2 3 0)]

/-- Each of those words decodes to its instruction. -/
def Obligations.SpecWordsDecode : Prop := ∀ e ∈ specWords, decodeTableWord 32 e.1 = some e.2

/-- Stores perform their bytes (R209, R218, R237): after a store every byte reads as its elements leave it, in ascending
order and under their masks, and a memory is the list of the bytes that read otherwise than an unlisted one. -/
def Obligations.StoresPerformTheirBytes : Prop :=
  (∀ s st a, CanonicalMemory s → rawByte (performStore s st) a = overlayElems a st.elems (rawByte s a)) ∧
  (∀ s st, CanonicalMemory s → CanonicalMemory (performStore s st)) ∧
  (∀ m n, Memory.wf m = true → Memory.wf n = true → (∀ a, Memory.read m a = Memory.read n a) → m = n)

/-- A thread that a turn or an event names becomes the current one, and no unit, thread or other part of the machine
changes by that; nor does it when the former thread becomes current again. -/
def Obligations.NamedThreadBecomesCurrent : Prop :=
  (∀ i s s1, InPlace s → focus i s = some s1 → InPlace s1 ∧ allUnits s1 = allUnits s ∧ here s1 = i ∧
    s1 = { s with t := s1.t, u := s1.u, units := s1.units }) ∧
  (∀ i s, InPlace s → InPlace (refocus i s) ∧ allUnits (refocus i s) = allUnits s ∧
    refocus i s = { s with t := (refocus i s).t, u := (refocus i s).u, units := (refocus i s).units })
end

