-- ==== Sys2Proof/Laws/Dispatch.lean ====
section
/-! SUPPORT. What `exec` answers for each constructor: the meaning of its instruction. -/

namespace Sys2Proof.Machine

open Sys2Proof

@[simp] theorem exec_udf {s : State} : ∀ x, exec (.udf x) s = execUdf x s := fun _ => rfl
@[simp] theorem exec_add {s : State} : ∀ f, exec (.add f) s = execAdd f s := fun _ => rfl
@[simp] theorem exec_sub {s : State} : ∀ f, exec (.sub f) s = execSub f s := fun _ => rfl
@[simp] theorem exec_and {s : State} : ∀ f, exec (.and f) s = execAnd f s := fun _ => rfl
@[simp] theorem exec_or {s : State} : ∀ f, exec (.or f) s = execOr f s := fun _ => rfl
@[simp] theorem exec_xor {s : State} : ∀ f, exec (.xor f) s = execXor f s := fun _ => rfl
@[simp] theorem exec_shl {s : State} : ∀ f, exec (.shl f) s = execShl f s := fun _ => rfl
@[simp] theorem exec_shr {s : State} : ∀ f, exec (.shr f) s = execShr f s := fun _ => rfl
@[simp] theorem exec_sra {s : State} : ∀ f, exec (.sra f) s = execSra f s := fun _ => rfl
@[simp] theorem exec_mul {s : State} : ∀ f, exec (.mul f) s = execMul f s := fun _ => rfl
@[simp] theorem exec_mulh {s : State} : ∀ f, exec (.mulh f) s = execMulh f s := fun _ => rfl
@[simp] theorem exec_mulhu {s : State} : ∀ f, exec (.mulhu f) s = execMulhu f s := fun _ => rfl
@[simp] theorem exec_div {s : State} : ∀ f, exec (.div f) s = execDiv f s := fun _ => rfl
@[simp] theorem exec_divu {s : State} : ∀ f, exec (.divu f) s = execDivu f s := fun _ => rfl
@[simp] theorem exec_rem {s : State} : ∀ f, exec (.rem f) s = execRem f s := fun _ => rfl
@[simp] theorem exec_remu {s : State} : ∀ f, exec (.remu f) s = execRemu f s := fun _ => rfl
@[simp] theorem exec_slt {s : State} : ∀ f, exec (.slt f) s = execSlt f s := fun _ => rfl
@[simp] theorem exec_sltu {s : State} : ∀ f, exec (.sltu f) s = execSltu f s := fun _ => rfl
@[simp] theorem exec_min {s : State} : ∀ f, exec (.min f) s = execMin f s := fun _ => rfl
@[simp] theorem exec_max {s : State} : ∀ f, exec (.max f) s = execMax f s := fun _ => rfl
@[simp] theorem exec_minu {s : State} : ∀ f, exec (.minu f) s = execMinu f s := fun _ => rfl
@[simp] theorem exec_maxu {s : State} : ∀ f, exec (.maxu f) s = execMaxu f s := fun _ => rfl
@[simp] theorem exec_clz {s : State} : ∀ f, exec (.clz f) s = execClz f s := fun _ => rfl
@[simp] theorem exec_ctz {s : State} : ∀ f, exec (.ctz f) s = execCtz f s := fun _ => rfl
@[simp] theorem exec_popc {s : State} : ∀ f, exec (.popc f) s = execPopc f s := fun _ => rfl
@[simp] theorem exec_brev {s : State} : ∀ f, exec (.brev f) s = execBrev f s := fun _ => rfl
@[simp] theorem exec_sel {s : State} : ∀ f, exec (.sel f) s = execSel f s := fun _ => rfl
@[simp] theorem exec_fadd {s : State} : ∀ f, exec (.fadd f) s = execFadd f s := fun _ => rfl
@[simp] theorem exec_fsub {s : State} : ∀ f, exec (.fsub f) s = execFsub f s := fun _ => rfl
@[simp] theorem exec_fmul {s : State} : ∀ f, exec (.fmul f) s = execFmul f s := fun _ => rfl
@[simp] theorem exec_fma {s : State} : ∀ f, exec (.fma f) s = execFma f s := fun _ => rfl
@[simp] theorem exec_fdiv {s : State} : ∀ f, exec (.fdiv f) s = execFdiv f s := fun _ => rfl
@[simp] theorem exec_fsqrt {s : State} : ∀ f, exec (.fsqrt f) s = execFsqrt f s := fun _ => rfl
@[simp] theorem exec_fmin {s : State} : ∀ f, exec (.fmin f) s = execFmin f s := fun _ => rfl
@[simp] theorem exec_fmax {s : State} : ∀ f, exec (.fmax f) s = execFmax f s := fun _ => rfl
@[simp] theorem exec_fcmp {s : State} : ∀ f, exec (.fcmp f) s = execFcmp f s := fun _ => rfl
@[simp] theorem exec_fcvt {s : State} : ∀ f, exec (.fcvt f) s = execFcvt f s := fun _ => rfl
@[simp] theorem exec_ficvt {s : State} : ∀ f, exec (.ficvt f) s = execFicvt f s := fun _ => rfl
@[simp] theorem exec_ifcvt {s : State} : ∀ f, exec (.ifcvt f) s = execIfcvt f s := fun _ => rfl
@[simp] theorem exec_addi {s : State} : ∀ f, exec (.addi f) s = execAddi f s := fun _ => rfl
@[simp] theorem exec_andi {s : State} : ∀ f, exec (.andi f) s = execAndi f s := fun _ => rfl
@[simp] theorem exec_ori {s : State} : ∀ f, exec (.ori f) s = execOri f s := fun _ => rfl
@[simp] theorem exec_xori {s : State} : ∀ f, exec (.xori f) s = execXori f s := fun _ => rfl
@[simp] theorem exec_shli {s : State} : ∀ f, exec (.shli f) s = execShli f s := fun _ => rfl
@[simp] theorem exec_shri {s : State} : ∀ f, exec (.shri f) s = execShri f s := fun _ => rfl
@[simp] theorem exec_srai {s : State} : ∀ f, exec (.srai f) s = execSrai f s := fun _ => rfl
@[simp] theorem exec_slti {s : State} : ∀ f, exec (.slti f) s = execSlti f s := fun _ => rfl
@[simp] theorem exec_sltiu {s : State} : ∀ f, exec (.sltiu f) s = execSltiu f s := fun _ => rfl
@[simp] theorem exec_muli {s : State} : ∀ f, exec (.muli f) s = execMuli f s := fun _ => rfl
@[simp] theorem exec_setvli {s : State} : ∀ f, exec (.setvli f) s = execSetvli f s := fun _ => rfl
@[simp] theorem exec_ldhi {s : State} : ∀ f, exec (.ldhi f) s = execLdhi f s := fun _ => rfl
@[simp] theorem exec_addpc {s : State} : ∀ f, exec (.addpc f) s = execAddpc f s := fun _ => rfl
@[simp] theorem exec_jalr {s : State} : ∀ f, exec (.jalr f) s = execJalr f s := fun _ => rfl
@[simp] theorem exec_jal {s : State} : ∀ f, exec (.jal f) s = execJal f s := fun _ => rfl
@[simp] theorem exec_beq {s : State} : ∀ f, exec (.beq f) s = execBeq f s := fun _ => rfl
@[simp] theorem exec_bne {s : State} : ∀ f, exec (.bne f) s = execBne f s := fun _ => rfl
@[simp] theorem exec_blt {s : State} : ∀ f, exec (.blt f) s = execBlt f s := fun _ => rfl
@[simp] theorem exec_bge {s : State} : ∀ f, exec (.bge f) s = execBge f s := fun _ => rfl
@[simp] theorem exec_bltu {s : State} : ∀ f, exec (.bltu f) s = execBltu f s := fun _ => rfl
@[simp] theorem exec_bgeu {s : State} : ∀ f, exec (.bgeu f) s = execBgeu f s := fun _ => rfl
@[simp] theorem exec_bp {s : State} : ∀ f, exec (.bp f) s = execBp f s := fun _ => rfl
@[simp] theorem exec_setvl {s : State} : ∀ f, exec (.setvl f) s = execSetvl f s := fun _ => rfl
@[simp] theorem exec_vcfg {s : State} : ∀ f, exec (.vcfg f) s = execVcfg f s := fun _ => rfl
@[simp] theorem exec_vsetty {s : State} : ∀ f, exec (.vsetty f) s = execVsetty f s := fun _ => rfl
@[simp] theorem exec_vadd {s : State} : ∀ f, exec (.vadd f) s = execVadd f s := fun _ => rfl
@[simp] theorem exec_vsub {s : State} : ∀ f, exec (.vsub f) s = execVsub f s := fun _ => rfl
@[simp] theorem exec_vmul {s : State} : ∀ f, exec (.vmul f) s = execVmul f s := fun _ => rfl
@[simp] theorem exec_vfma {s : State} : ∀ f, exec (.vfma f) s = execVfma f s := fun _ => rfl
@[simp] theorem exec_vfms {s : State} : ∀ f, exec (.vfms f) s = execVfms f s := fun _ => rfl
@[simp] theorem exec_vdiv {s : State} : ∀ f, exec (.vdiv f) s = execVdiv f s := fun _ => rfl
@[simp] theorem exec_vsqrt {s : State} : ∀ f, exec (.vsqrt f) s = execVsqrt f s := fun _ => rfl
@[simp] theorem exec_vmin {s : State} : ∀ f, exec (.vmin f) s = execVmin f s := fun _ => rfl
@[simp] theorem exec_vmax {s : State} : ∀ f, exec (.vmax f) s = execVmax f s := fun _ => rfl
@[simp] theorem exec_vabs {s : State} : ∀ f, exec (.vabs f) s = execVabs f s := fun _ => rfl
@[simp] theorem exec_vneg {s : State} : ∀ f, exec (.vneg f) s = execVneg f s := fun _ => rfl
@[simp] theorem exec_vand {s : State} : ∀ f, exec (.vand f) s = execVand f s := fun _ => rfl
@[simp] theorem exec_vor {s : State} : ∀ f, exec (.vor f) s = execVor f s := fun _ => rfl
@[simp] theorem exec_vxor {s : State} : ∀ f, exec (.vxor f) s = execVxor f s := fun _ => rfl
@[simp] theorem exec_vshl {s : State} : ∀ f, exec (.vshl f) s = execVshl f s := fun _ => rfl
@[simp] theorem exec_vshr {s : State} : ∀ f, exec (.vshr f) s = execVshr f s := fun _ => rfl
@[simp] theorem exec_vsra {s : State} : ∀ f, exec (.vsra f) s = execVsra f s := fun _ => rfl
@[simp] theorem exec_vcmp {s : State} : ∀ f, exec (.vcmp f) s = execVcmp f s := fun _ => rfl
@[simp] theorem exec_vsel {s : State} : ∀ f, exec (.vsel f) s = execVsel f s := fun _ => rfl
@[simp] theorem exec_vcvt {s : State} : ∀ f, exec (.vcvt f) s = execVcvt f s := fun _ => rfl
@[simp] theorem exec_vwid {s : State} : ∀ f, exec (.vwid f) s = execVwid f s := fun _ => rfl
@[simp] theorem exec_vnar {s : State} : ∀ f, exec (.vnar f) s = execVnar f s := fun _ => rfl
@[simp] theorem exec_vsplat {s : State} : ∀ f, exec (.vsplat f) s = execVsplat f s := fun _ => rfl
@[simp] theorem exec_vidx {s : State} : ∀ f, exec (.vidx f) s = execVidx f s := fun _ => rfl
@[simp] theorem exec_vext {s : State} : ∀ f, exec (.vext f) s = execVext f s := fun _ => rfl
@[simp] theorem exec_vins {s : State} : ∀ f, exec (.vins f) s = execVins f s := fun _ => rfl
@[simp] theorem exec_vslide {s : State} : ∀ f, exec (.vslide f) s = execVslide f s := fun _ => rfl
@[simp] theorem exec_vperm {s : State} : ∀ f, exec (.vperm f) s = execVperm f s := fun _ => rfl
@[simp] theorem exec_vshape {s : State} : ∀ f, exec (.vshape f) s = execVshape f s := fun _ => rfl
@[simp] theorem exec_vcompress {s : State} : ∀ f, exec (.vcompress f) s = execVcompress f s := fun _ => rfl
@[simp] theorem exec_vexpand {s : State} : ∀ f, exec (.vexpand f) s = execVexpand f s := fun _ => rfl
@[simp] theorem exec_vredsum {s : State} : ∀ f, exec (.vredsum f) s = execVredsum f s := fun _ => rfl
@[simp] theorem exec_vredtsum {s : State} : ∀ f, exec (.vredtsum f) s = execVredtsum f s := fun _ => rfl
@[simp] theorem exec_vredmax {s : State} : ∀ f, exec (.vredmax f) s = execVredmax f s := fun _ => rfl
@[simp] theorem exec_vredmin {s : State} : ∀ f, exec (.vredmin f) s = execVredmin f s := fun _ => rfl
@[simp] theorem exec_vscan {s : State} : ∀ f, exec (.vscan f) s = execVscan f s := fun _ => rfl
@[simp] theorem exec_vexpf {s : State} : ∀ f, exec (.vexpf f) s = execVexpf f s := fun _ => rfl
@[simp] theorem exec_vexpx {s : State} : ∀ f, exec (.vexpx f) s = execVexpx f s := fun _ => rfl
@[simp] theorem exec_vlogf {s : State} : ∀ f, exec (.vlogf f) s = execVlogf f s := fun _ => rfl
@[simp] theorem exec_vlogx {s : State} : ∀ f, exec (.vlogx f) s = execVlogx f s := fun _ => rfl
@[simp] theorem exec_vrcpf {s : State} : ∀ f, exec (.vrcpf f) s = execVrcpf f s := fun _ => rfl
@[simp] theorem exec_vrcpx {s : State} : ∀ f, exec (.vrcpx f) s = execVrcpx f s := fun _ => rfl
@[simp] theorem exec_vrsqf {s : State} : ∀ f, exec (.vrsqf f) s = execVrsqf f s := fun _ => rfl
@[simp] theorem exec_vrsqx {s : State} : ∀ f, exec (.vrsqx f) s = execVrsqx f s := fun _ => rfl
@[simp] theorem exec_vsinf {s : State} : ∀ f, exec (.vsinf f) s = execVsinf f s := fun _ => rfl
@[simp] theorem exec_vsinx {s : State} : ∀ f, exec (.vsinx f) s = execVsinx f s := fun _ => rfl
@[simp] theorem exec_vtanhf {s : State} : ∀ f, exec (.vtanhf f) s = execVtanhf f s := fun _ => rfl
@[simp] theorem exec_vtanhx {s : State} : ∀ f, exec (.vtanhx f) s = execVtanhx f s := fun _ => rfl
@[simp] theorem exec_pand {s : State} : ∀ f, exec (.pand f) s = execPand f s := fun _ => rfl
@[simp] theorem exec_por {s : State} : ∀ f, exec (.por f) s = execPor f s := fun _ => rfl
@[simp] theorem exec_pxor {s : State} : ∀ f, exec (.pxor f) s = execPxor f s := fun _ => rfl
@[simp] theorem exec_pandn {s : State} : ∀ f, exec (.pandn f) s = execPandn f s := fun _ => rfl
@[simp] theorem exec_ppopc {s : State} : ∀ f, exec (.ppopc f) s = execPpopc f s := fun _ => rfl
@[simp] theorem exec_pfirst {s : State} : ∀ f, exec (.pfirst f) s = execPfirst f s := fun _ => rfl
@[simp] theorem exec_pbrk {s : State} : ∀ f, exec (.pbrk f) s = execPbrk f s := fun _ => rfl
@[simp] theorem exec_pfromx {s : State} : ∀ f, exec (.pfromx f) s = execPfromx f s := fun _ => rfl
@[simp] theorem exec_vpfetch {s : State} : ∀ f, exec (.vpfetch f) s = execVpfetch f s := fun _ => rfl
@[simp] theorem exec_vpjoin {s : State} : ∀ f, exec (.vpjoin f) s = execVpjoin f s := fun _ => rfl
@[simp] theorem exec_vdot {s : State} : ∀ f, exec (.vdot f) s = execVdot f s := fun _ => rfl
@[simp] theorem exec_fnset {s : State} : ∀ f, exec (.fnset f) s = execFnset f s := fun _ => rfl
@[simp] theorem exec_fnld {s : State} : ∀ f, exec (.fnld f) s = execFnld f s := fun _ => rfl
@[simp] theorem exec_fnst {s : State} : ∀ f, exec (.fnst f) s = execFnst f s := fun _ => rfl
@[simp] theorem exec_fnmov {s : State} : ∀ f, exec (.fnmov f) s = execFnmov f s := fun _ => rfl
@[simp] theorem exec_fnadd {s : State} : ∀ f, exec (.fnadd f) s = execFnadd f s := fun _ => rfl
@[simp] theorem exec_fnsub {s : State} : ∀ f, exec (.fnsub f) s = execFnsub f s := fun _ => rfl
@[simp] theorem exec_fnmul {s : State} : ∀ f, exec (.fnmul f) s = execFnmul f s := fun _ => rfl
@[simp] theorem exec_fnscl {s : State} : ∀ f, exec (.fnscl f) s = execFnscl f s := fun _ => rfl
@[simp] theorem exec_fnaxpy {s : State} : ∀ f, exec (.fnaxpy f) s = execFnaxpy f s := fun _ => rfl
@[simp] theorem exec_fndiff {s : State} : ∀ f, exec (.fndiff f) s = execFndiff f s := fun _ => rfl
@[simp] theorem exec_fnint {s : State} : ∀ f, exec (.fnint f) s = execFnint f s := fun _ => rfl
@[simp] theorem exec_fnquad {s : State} : ∀ f, exec (.fnquad f) s = execFnquad f s := fun _ => rfl
@[simp] theorem exec_fnproj {s : State} : ∀ f, exec (.fnproj f) s = execFnproj f s := fun _ => rfl
@[simp] theorem exec_fnbasis {s : State} : ∀ f, exec (.fnbasis f) s = execFnbasis f s := fun _ => rfl
@[simp] theorem exec_fntrace {s : State} : ∀ f, exec (.fntrace f) s = execFntrace f s := fun _ => rfl
@[simp] theorem exec_fneval {s : State} : ∀ f, exec (.fneval f) s = execFneval f s := fun _ => rfl
@[simp] theorem exec_fnlift {s : State} : ∀ f, exec (.fnlift f) s = execFnlift f s := fun _ => rfl
@[simp] theorem exec_fndeg {s : State} : ∀ f, exec (.fndeg f) s = execFndeg f s := fun _ => rfl
@[simp] theorem exec_fnnorm {s : State} : ∀ f, exec (.fnnorm f) s = execFnnorm f s := fun _ => rfl
@[simp] theorem exec_stl {s : State} : ∀ f, exec (.stl f) s = execStl f s := fun _ => rfl
@[simp] theorem exec_tcfg {s : State} : ∀ f, exec (.tcfg f) s = execTcfg f s := fun _ => rfl
@[simp] theorem exec_tzero {s : State} : ∀ f, exec (.tzero f) s = execTzero f s := fun _ => rfl
@[simp] theorem exec_tld {s : State} : ∀ f, exec (.tld f) s = execTld f s := fun _ => rfl
@[simp] theorem exec_tldf {s : State} : ∀ f, exec (.tldf f) s = execTldf f s := fun _ => rfl
@[simp] theorem exec_tst {s : State} : ∀ f, exec (.tst f) s = execTst f s := fun _ => rfl
@[simp] theorem exec_tstf {s : State} : ∀ f, exec (.tstf f) s = execTstf f s := fun _ => rfl
@[simp] theorem exec_tmm {s : State} : ∀ f, exec (.tmm f) s = execTmm f s := fun _ => rfl
@[simp] theorem exec_tlmm {s : State} : ∀ f, exec (.tlmm f) s = execTlmm f s := fun _ => rfl
@[simp] theorem exec_tadd {s : State} : ∀ f, exec (.tadd f) s = execTadd f s := fun _ => rfl
@[simp] theorem exec_trecomp {s : State} : ∀ f, exec (.trecomp f) s = execTrecomp f s := fun _ => rfl
@[simp] theorem exec_tdense {s : State} : ∀ f, exec (.tdense f) s = execTdense f s := fun _ => rfl
@[simp] theorem exec_tcomp {s : State} : ∀ f, exec (.tcomp f) s = execTcomp f s := fun _ => rfl
@[simp] theorem exec_tscale {s : State} : ∀ f, exec (.tscale f) s = execTscale f s := fun _ => rfl
@[simp] theorem exec_tcvt {s : State} : ∀ f, exec (.tcvt f) s = execTcvt f s := fun _ => rfl
@[simp] theorem exec_trank {s : State} : ∀ f, exec (.trank f) s = execTrank f s := fun _ => rfl
@[simp] theorem exec_tsync {s : State} : ∀ f, exec (.tsync f) s = execTsync f s := fun _ => rfl
@[simp] theorem exec_ld {s : State} : ∀ f, exec (.ld f) s = execLd f s := fun _ => rfl
@[simp] theorem exec_st {s : State} : ∀ f, exec (.st f) s = execSt f s := fun _ => rfl
@[simp] theorem exec_vld {s : State} : ∀ f, exec (.vld f) s = execVld f s := fun _ => rfl
@[simp] theorem exec_vst {s : State} : ∀ f, exec (.vst f) s = execVst f s := fun _ => rfl
@[simp] theorem exec_vldff {s : State} : ∀ f, exec (.vldff f) s = execVldff f s := fun _ => rfl
@[simp] theorem exec_vldp {s : State} : ∀ f, exec (.vldp f) s = execVldp f s := fun _ => rfl
@[simp] theorem exec_chsend {s : State} : ∀ f, exec (.chsend f) s = execChsend f s := fun _ => rfl
@[simp] theorem exec_chrecv {s : State} : ∀ f, exec (.chrecv f) s = execChrecv f s := fun _ => rfl
@[simp] theorem exec_mfrset {s : State} : ∀ f, exec (.mfrset f) s = execMfrset f s := fun _ => rfl
@[simp] theorem exec_sbind {s : State} : ∀ f, exec (.sbind f) s = execSbind f s := fun _ => rfl
@[simp] theorem exec_sfree {s : State} : ∀ f, exec (.sfree f) s = execSfree f s := fun _ => rfl
@[simp] theorem exec_copy {s : State} : ∀ f, exec (.copy f) s = execCopy f s := fun _ => rfl
@[simp] theorem exec_chcfg {s : State} : ∀ f, exec (.chcfg f) s = execChcfg f s := fun _ => rfl
@[simp] theorem exec_amoadd {s : State} : ∀ f, exec (.amoadd f) s = execAmoadd f s := fun _ => rfl
@[simp] theorem exec_amofadd {s : State} : ∀ f, exec (.amofadd f) s = execAmofadd f s := fun _ => rfl
@[simp] theorem exec_amomax {s : State} : ∀ f, exec (.amomax f) s = execAmomax f s := fun _ => rfl
@[simp] theorem exec_amomin {s : State} : ∀ f, exec (.amomin f) s = execAmomin f s := fun _ => rfl
@[simp] theorem exec_amoand {s : State} : ∀ f, exec (.amoand f) s = execAmoand f s := fun _ => rfl
@[simp] theorem exec_amoor {s : State} : ∀ f, exec (.amoor f) s = execAmoor f s := fun _ => rfl
@[simp] theorem exec_amoswap {s : State} : ∀ f, exec (.amoswap f) s = execAmoswap f s := fun _ => rfl
@[simp] theorem exec_amocas {s : State} : ∀ f, exec (.amocas f) s = execAmocas f s := fun _ => rfl
@[simp] theorem exec_amofmax {s : State} : ∀ f, exec (.amofmax f) s = execAmofmax f s := fun _ => rfl
@[simp] theorem exec_fence {s : State} : ∀ f, exec (.fence f) s = execFence f s := fun _ => rfl
@[simp] theorem exec_waitc {s : State} : ∀ f, exec (.waitc f) s = execWaitc f s := fun _ => rfl
@[simp] theorem exec_tlwait {s : State} : ∀ f, exec (.tlwait f) s = execTlwait f s := fun _ => rfl
@[simp] theorem exec_tlread {s : State} : ∀ f, exec (.tlread f) s = execTlread f s := fun _ => rfl
@[simp] theorem exec_stend {s : State} : ∀ f, exec (.stend f) s = execStend f s := fun _ => rfl
@[simp] theorem exec_bar {s : State} : ∀ f, exec (.bar f) s = execBar f s := fun _ => rfl
@[simp] theorem exec_launch {s : State} : ∀ f, exec (.launch f) s = execLaunch f s := fun _ => rfl
@[simp] theorem exec_launchNb {s : State} : ∀ f, exec (.launchNb f) s = execLaunchNb f s := fun _ => rfl
@[simp] theorem exec_join {s : State} : ∀ f, exec (.join f) s = execJoin f s := fun _ => rfl
@[simp] theorem exec_cancel {s : State} : ∀ f, exec (.cancel f) s = execCancel f s := fun _ => rfl
@[simp] theorem exec_ccread {s : State} : ∀ f, exec (.ccread f) s = execCcread f s := fun _ => rfl
@[simp] theorem exec_yield {s : State} : ∀ f, exec (.yield f) s = execYield f s := fun _ => rfl
@[simp] theorem exec_lanepart {s : State} : ∀ f, exec (.lanepart f) s = execLanepart f s := fun _ => rfl
@[simp] theorem exec_coll {s : State} : ∀ f, exec (.coll f) s = execColl f s := fun _ => rfl
@[simp] theorem exec_xsend {s : State} : ∀ f, exec (.xsend f) s = execXsend f s := fun _ => rfl
@[simp] theorem exec_exit {s : State} : ∀ f, exec (.exit f) s = execExit f s := fun _ => rfl
@[simp] theorem exec_dload {s : State} : ∀ f, exec (.dload f) s = execDload f s := fun _ => rfl
@[simp] theorem exec_dsync {s : State} : ∀ f, exec (.dsync f) s = execDsync f s := fun _ => rfl
@[simp] theorem exec_dread {s : State} : ∀ f, exec (.dread f) s = execDread f s := fun _ => rfl
@[simp] theorem exec_sysrd {s : State} : ∀ f, exec (.sysrd f) s = execSysrd f s := fun _ => rfl
@[simp] theorem exec_syswr {s : State} : ∀ f, exec (.syswr f) s = execSyswr f s := fun _ => rfl
@[simp] theorem exec_sysset {s : State} : ∀ f, exec (.sysset f) s = execSysset f s := fun _ => rfl
@[simp] theorem exec_sysclr {s : State} : ∀ f, exec (.sysclr f) s = execSysclr f s := fun _ => rfl
@[simp] theorem exec_svc {s : State} : ∀ f, exec (.svc f) s = execSvc f s := fun _ => rfl
@[simp] theorem exec_trap {s : State} : ∀ f, exec (.trap f) s = execTrap f s := fun _ => rfl
@[simp] theorem exec_tret {s : State} : ∀ f, exec (.tret f) s = execTret f s := fun _ => rfl
@[simp] theorem exec_tlbinv {s : State} : ∀ f, exec (.tlbinv f) s = execTlbinv f s := fun _ => rfl
@[simp] theorem exec_brkpt {s : State} : ∀ f, exec (.brkpt f) s = execBrkpt f s := fun _ => rfl
@[simp] theorem exec_dictionaryWord {s : State} : ∀ e a b c, exec (.dictionaryWord e a b c) s = execDictionaryWord e a b c s := fun _ _ _ _ => rfl
@[simp] theorem exec_stripAgeClose {s : State} : ∀ t, exec (.stripAgeClose t) s = execStripAgeClose t s := fun _ => rfl
@[simp] theorem exec_engineCommandIssue {s : State} : ∀ t, exec (.engineCommandIssue t) s = execEngineCommandIssue t s := fun _ => rfl
@[simp] theorem exec_waitingContextReady {s : State} : ∀ t, exec (.waitingContextReady t) s = execWaitingContextReady t s := fun _ => rfl
@[simp] theorem exec_vpGroupYield {s : State} : ∀ t, exec (.vpGroupYield t) s = execVpGroupYield t s := fun _ => rfl
@[simp] theorem exec_dictImageLoad {s : State} : ∀ t, exec (.dictImageLoad t) s = execDictImageLoad t s := fun _ => rfl
@[simp] theorem exec_streamReadAhead {s : State} : ∀ t sm k, exec (.streamReadAhead t sm k) s = execStreamReadAhead t sm k s := fun _ _ _ => rfl
@[simp] theorem exec_epochEnd {s : State} : ∀ part entry, exec (.epochEnd part entry) s = execEpochEnd part entry s := fun _ _ => rfl
@[simp] theorem exec_copyStart {s : State} : ∀ uid tl, exec (.copyStart uid tl) s = execCopyStart uid tl s := fun _ _ => rfl
@[simp] theorem exec_copyComplete {s : State} : ∀ uid tl, exec (.copyComplete uid tl) s = execCopyComplete uid tl s := fun _ _ => rfl
@[simp] theorem exec_tileOperationFire {s : State} : ∀ uid, exec (.tileOperationFire uid) s = execTileOperationFire uid s := fun _ => rfl
@[simp] theorem exec_tileOperationComplete {s : State} : ∀ uid, exec (.tileOperationComplete uid) s = execTileOperationComplete uid s := fun _ => rfl
@[simp] theorem exec_engineFaultDelivery {s : State} : ∀ t, exec (.engineFaultDelivery t) s = execEngineFaultDelivery t s := fun _ => rfl
@[simp] theorem exec_singleStepBreakpoint {s : State} : ∀ t, exec (.singleStepBreakpoint t) s = execSingleStepBreakpoint t s := fun _ => rfl
@[simp] theorem exec_rprSuspWrite {s : State} : ∀ t, exec (.rprSuspWrite t) s = execRprSuspWrite t s := fun _ => rfl
@[simp] theorem exec_cpstatSuspWrite {s : State} : ∀ t n, exec (.cpstatSuspWrite t n) s = execCpstatSuspWrite t n s := fun _ _ => rfl
@[simp] theorem exec_vtrWrite {s : State} : ∀ t v, exec (.vtrWrite t v) s = execVtrWrite t v s := fun _ _ => rfl
@[simp] theorem exec_endunitWrite {s : State} : ∀ t, exec (.endunitWrite t) s = execEndunitWrite t s := fun _ => rfl
@[simp] theorem exec_ctxtblKick {s : State} : ∀ part, exec (.ctxtblKick part) s = execCtxtblKick part s := fun _ => rfl
@[simp] theorem exec_unitPlacement {s : State} : ∀ part cluster, exec (.unitPlacement part cluster) s = execUnitPlacement part cluster s := fun _ _ => rfl
@[simp] theorem exec_threadStart {s : State} : ∀ t, exec (.threadStart t) s = execThreadStart t s := fun _ => rfl
@[simp] theorem exec_priorityAging {s : State} : ∀ part entry, exec (.priorityAging part entry) s = execPriorityAging part entry s := fun _ _ => rfl
@[simp] theorem exec_preemption {s : State} : ∀ part, exec (.preemption part) s = execPreemption part s := fun _ => rfl
@[simp] theorem exec_quantumExpiry {s : State} : ∀ part uid, exec (.quantumExpiry part uid) s = execQuantumExpiry part uid s := fun _ _ => rfl
@[simp] theorem exec_idleSwitchOut {s : State} : ∀ uid, exec (.idleSwitchOut uid) s = execIdleSwitchOut uid s := fun _ => rfl
@[simp] theorem exec_unitRestore {s : State} : ∀ uid cluster, exec (.unitRestore uid cluster) s = execUnitRestore uid cluster s := fun _ _ => rfl
@[simp] theorem exec_reclaimDeadlineExpiry {s : State} : ∀ t, exec (.reclaimDeadlineExpiry t) s = execReclaimDeadlineExpiry t s := fun _ => rfl
@[simp] theorem exec_poolEntryQuarantineEnd {s : State} : ∀ part entry, exec (.poolEntryQuarantineEnd part entry) s = execPoolEntryQuarantineEnd part entry s := fun _ _ => rfl
@[simp] theorem exec_adqtailWrite {s : State} : ∀ part v, exec (.adqtailWrite part v) s = execAdqtailWrite part v s := fun _ _ => rfl
@[simp] theorem exec_hostLaunchCommand {s : State} : ∀ part, exec (.hostLaunchCommand part) s = execHostLaunchCommand part s := fun _ => rfl
@[simp] theorem exec_hostReadCounterCommand {s : State} : ∀ part, exec (.hostReadCounterCommand part) s = execHostReadCounterCommand part s := fun _ => rfl
@[simp] theorem exec_hostCancelCommand {s : State} : ∀ part, exec (.hostCancelCommand part) s = execHostCancelCommand part s := fun _ => rfl
@[simp] theorem exec_hostJoinCommand {s : State} : ∀ part, exec (.hostJoinCommand part) s = execHostJoinCommand part s := fun _ => rfl
@[simp] theorem exec_hostJoinComplete {s : State} : ∀ part slot, exec (.hostJoinComplete part slot) s = execHostJoinComplete part slot s := fun _ _ => rfl
@[simp] theorem exec_hostCommandInvalid {s : State} : ∀ part, exec (.hostCommandInvalid part) s = execHostCommandInvalid part s := fun _ => rfl
@[simp] theorem exec_doorbellWrite {s : State} : ∀ off v, exec (.doorbellWrite off v) s = execDoorbellWrite off v s := fun _ _ => rfl
@[simp] theorem exec_xsendPacketArrival {s : State} : ∀ part p, exec (.xsendPacketArrival part p) s = execXsendPacketArrival part p s := fun _ _ => rfl
@[simp] theorem exec_xsendLaunchAccept {s : State} : ∀ part k, exec (.xsendLaunchAccept part k) s = execXsendLaunchAccept part k s := fun _ _ => rfl
@[simp] theorem exec_terminationRound {s : State} : ∀ part job remote, exec (.terminationRound part job remote) s = execTerminationRound part job remote s := fun _ _ _ => rfl
@[simp] theorem exec_jobCancelMessage {s : State} : ∀ part job, exec (.jobCancelMessage part job) s = execJobCancelMessage part job s := fun _ _ => rfl
@[simp] theorem exec_collectiveMatch {s : State} : ∀ part job gl remote, exec (.collectiveMatch part job gl remote) s = execCollectiveMatch part job gl remote s := fun _ _ _ _ => rfl
@[simp] theorem exec_collectiveChunkFinal {s : State} : ∀ part job gl remote order, exec (.collectiveChunkFinal part job gl remote order) s = execCollectiveChunkFinal part job gl remote order s := fun _ _ _ _ _ => rfl
@[simp] theorem exec_collectiveComplete {s : State} : ∀ part job gl, exec (.collectiveComplete part job gl) s = execCollectiveComplete part job gl s := fun _ _ _ => rfl
@[simp] theorem exec_collectivePatienceExpiry {s : State} : ∀ part job gl, exec (.collectivePatienceExpiry part job gl) s = execCollectivePatienceExpiry part job gl s := fun _ _ _ => rfl
@[simp] theorem exec_collectiveMemberLost {s : State} : ∀ part job gl, exec (.collectiveMemberLost part job gl) s = execCollectiveMemberLost part job gl s := fun _ _ _ => rfl
@[simp] theorem exec_portEnable {s : State} : ∀ port, exec (.portEnable port) s = execPortEnable port s := fun _ => rfl
@[simp] theorem exec_lanesTrained {s : State} : ∀ port, exec (.lanesTrained port) s = execLanesTrained port s := fun _ => rfl
@[simp] theorem exec_keyAgreed {s : State} : ∀ x peer tier rtt, exec (.keyAgreed x peer tier rtt) s = execKeyAgreed x peer tier rtt s := fun _ _ _ _ => rfl
@[simp] theorem exec_peerAttestationFailure {s : State} : ∀ x, exec (.peerAttestationFailure x) s = execPeerAttestationFailure x s := fun _ => rfl
@[simp] theorem exec_flitReceive {s : State} : ∀ port f, exec (.flitReceive port f) s = execFlitReceive port f s := fun _ _ => rfl
@[simp] theorem exec_flitResend {s : State} : ∀ f, exec (.flitResend f) s = execFlitResend f s := fun _ => rfl
@[simp] theorem exec_retryWindowAcknowledged {s : State} : ∀ a, exec (.retryWindowAcknowledged a) s = execRetryWindowAcknowledged a s := fun _ => rfl
@[simp] theorem exec_keyReagreement {s : State} : ∀ x, exec (.keyReagreement x) s = execKeyReagreement x s := fun _ => rfl
@[simp] theorem exec_persistentLaneFailure {s : State} : ∀ port, exec (.persistentLaneFailure port) s = execPersistentLaneFailure port s := fun _ => rfl
@[simp] theorem exec_linkFailure {s : State} : ∀ port, exec (.linkFailure port) s = execLinkFailure port s := fun _ => rfl
@[simp] theorem exec_portRetrain {s : State} : ∀ port, exec (.portRetrain port) s = execPortRetrain port s := fun _ => rfl
@[simp] theorem exec_ingressWrite {s : State} : ∀ dest bytes, exec (.ingressWrite dest bytes) s = execIngressWrite dest bytes s := fun _ _ => rfl
@[simp] theorem exec_egressLine {s : State} : ∀ port pa, exec (.egressLine port pa) s = execEgressLine port pa s := fun _ _ => rfl
@[simp] theorem exec_sramCorrectedError {s : State} : ∀ die core lane, exec (.sramCorrectedError die core lane) s = execSramCorrectedError die core lane s := fun _ _ _ => rfl
@[simp] theorem exec_sramUncorrectableError {s : State} : ∀ core lane shadowOk, exec (.sramUncorrectableError core lane shadowOk) s = execSramUncorrectableError core lane shadowOk s := fun _ _ _ => rfl
@[simp] theorem exec_dramCorrectedError {s : State} : ∀ pa, exec (.dramCorrectedError pa) s = execDramCorrectedError pa s := fun _ => rfl
@[simp] theorem exec_dramUncorrectableError {s : State} : ∀ pa, exec (.dramUncorrectableError pa) s = execDramUncorrectableError pa s := fun _ => rfl
@[simp] theorem exec_partitionChange {s : State} : ∀ d, exec (.partitionChange d) s = execPartitionChange d s := fun _ => rfl
@[simp] theorem exec_attestationReport {s : State} : ∀ part job nonce, exec (.attestationReport part job nonce) s = execAttestationReport part job nonce s := fun _ _ _ => rfl
@[simp] theorem exec_powerOn {s : State} : ∀ b, exec (.powerOn b) s = execPowerOn b s := fun _ => rfl
@[simp] theorem exec_railOutOfTolerance {s : State} : ∀ rail, exec (.railOutOfTolerance rail) s = execRailOutOfTolerance rail s := fun _ => rfl
@[simp] theorem exec_clockReduction {s : State} : ∀ part die, exec (.clockReduction part die) s = execClockReduction part die s := fun _ _ => rfl
@[simp] theorem exec_clockRaise {s : State} : ∀ part die, exec (.clockRaise part die) s = execClockRaise part die s := fun _ _ => rfl
@[simp] theorem exec_thermalShutdown {s : State} : ∀ temp, exec (.thermalShutdown temp) s = execThermalShutdown temp s := fun _ => rfl
@[simp] theorem exec_stripStoresPerform {s : State} : ∀ t k, exec (.stripStoresPerform t k) s = execStripStoresPerform t k s := fun _ _ => rfl
@[simp] theorem exec_groupRegistration {s : State} : ∀ part job num g, exec (.groupRegistration part job num g) s = execGroupRegistration part job num g s := fun _ _ _ _ => rfl
@[simp] theorem exec_cccfgWrite {s : State} : ∀ cluster v, exec (.cccfgWrite cluster v) s = execCccfgWrite cluster v s := fun _ _ => rfl
@[simp] theorem exec_adqWrite {s : State} : ∀ part v, exec (.adqWrite part v) s = execAdqWrite part v s := fun _ _ => rfl

end Sys2Proof.Machine
end

