-- ==== Sys2Proof/Laws/Forms.lean ====
section
/-! SUPPORT. Every instruction of a thread first passes the checks of its opcode: `exec` runs a body under `runForm`. -/

namespace Sys2Proof.Machine

open Sys2Proof

theorem form_udf (x : BitVec 23) (s : State) : ∃ b, exec (.udf x) s = runForm 0x00 {} s b := by
  rw [exec_udf]; unfold execUdf; exact ⟨_, rfl⟩
theorem form_add (f : Form) (s : State) : ∃ b, exec (.add f) s = runForm 0x01 f s b := by
  rw [exec_add]; unfold execAdd scalarOp; exact ⟨_, rfl⟩
theorem form_addi (f : Form) (s : State) : ∃ b, exec (.addi f) s = runForm 0x01 f s b := by
  rw [exec_addi]; unfold execAddi scalarOp; exact ⟨_, rfl⟩
theorem form_sub (f : Form) (s : State) : ∃ b, exec (.sub f) s = runForm 0x02 f s b := by
  rw [exec_sub]; unfold execSub scalarOp; exact ⟨_, rfl⟩
theorem form_and (f : Form) (s : State) : ∃ b, exec (.and f) s = runForm 0x03 f s b := by
  rw [exec_and]; unfold execAnd scalarOp; exact ⟨_, rfl⟩
theorem form_andi (f : Form) (s : State) : ∃ b, exec (.andi f) s = runForm 0x03 f s b := by
  rw [exec_andi]; unfold execAndi scalarOp; exact ⟨_, rfl⟩
theorem form_or (f : Form) (s : State) : ∃ b, exec (.or f) s = runForm 0x04 f s b := by
  rw [exec_or]; unfold execOr scalarOp; exact ⟨_, rfl⟩
theorem form_ori (f : Form) (s : State) : ∃ b, exec (.ori f) s = runForm 0x04 f s b := by
  rw [exec_ori]; unfold execOri scalarOp; exact ⟨_, rfl⟩
theorem form_xor (f : Form) (s : State) : ∃ b, exec (.xor f) s = runForm 0x05 f s b := by
  rw [exec_xor]; unfold execXor scalarOp; exact ⟨_, rfl⟩
theorem form_xori (f : Form) (s : State) : ∃ b, exec (.xori f) s = runForm 0x05 f s b := by
  rw [exec_xori]; unfold execXori scalarOp; exact ⟨_, rfl⟩
theorem form_shl (f : Form) (s : State) : ∃ b, exec (.shl f) s = runForm 0x06 f s b := by
  rw [exec_shl]; unfold execShl scalarOp; exact ⟨_, rfl⟩
theorem form_shli (f : Form) (s : State) : ∃ b, exec (.shli f) s = runForm 0x06 f s b := by
  rw [exec_shli]; unfold execShli scalarOp; exact ⟨_, rfl⟩
theorem form_shr (f : Form) (s : State) : ∃ b, exec (.shr f) s = runForm 0x07 f s b := by
  rw [exec_shr]; unfold execShr scalarOp; exact ⟨_, rfl⟩
theorem form_shri (f : Form) (s : State) : ∃ b, exec (.shri f) s = runForm 0x07 f s b := by
  rw [exec_shri]; unfold execShri scalarOp; exact ⟨_, rfl⟩
theorem form_sra (f : Form) (s : State) : ∃ b, exec (.sra f) s = runForm 0x08 f s b := by
  rw [exec_sra]; unfold execSra scalarOp; exact ⟨_, rfl⟩
theorem form_srai (f : Form) (s : State) : ∃ b, exec (.srai f) s = runForm 0x08 f s b := by
  rw [exec_srai]; unfold execSrai scalarOp; exact ⟨_, rfl⟩
theorem form_mul (f : Form) (s : State) : ∃ b, exec (.mul f) s = runForm 0x09 f s b := by
  rw [exec_mul]; unfold execMul scalarOp; exact ⟨_, rfl⟩
theorem form_muli (f : Form) (s : State) : ∃ b, exec (.muli f) s = runForm 0x09 f s b := by
  rw [exec_muli]; unfold execMuli scalarOp; exact ⟨_, rfl⟩
theorem form_mulh (f : Form) (s : State) : ∃ b, exec (.mulh f) s = runForm 0x0A f s b := by
  rw [exec_mulh]; unfold execMulh scalarOp; exact ⟨_, rfl⟩
theorem form_mulhu (f : Form) (s : State) : ∃ b, exec (.mulhu f) s = runForm 0x0B f s b := by
  rw [exec_mulhu]; unfold execMulhu scalarOp; exact ⟨_, rfl⟩
theorem form_div (f : Form) (s : State) : ∃ b, exec (.div f) s = runForm 0x0C f s b := by
  rw [exec_div]; unfold execDiv scalarOp; exact ⟨_, rfl⟩
theorem form_divu (f : Form) (s : State) : ∃ b, exec (.divu f) s = runForm 0x0D f s b := by
  rw [exec_divu]; unfold execDivu scalarOp; exact ⟨_, rfl⟩
theorem form_rem (f : Form) (s : State) : ∃ b, exec (.rem f) s = runForm 0x0E f s b := by
  rw [exec_rem]; unfold execRem scalarOp; exact ⟨_, rfl⟩
theorem form_remu (f : Form) (s : State) : ∃ b, exec (.remu f) s = runForm 0x0F f s b := by
  rw [exec_remu]; unfold execRemu scalarOp; exact ⟨_, rfl⟩
theorem form_slt (f : Form) (s : State) : ∃ b, exec (.slt f) s = runForm 0x10 f s b := by
  rw [exec_slt]; unfold execSlt scalarOp; exact ⟨_, rfl⟩
theorem form_slti (f : Form) (s : State) : ∃ b, exec (.slti f) s = runForm 0x10 f s b := by
  rw [exec_slti]; unfold execSlti scalarOp; exact ⟨_, rfl⟩
theorem form_sltu (f : Form) (s : State) : ∃ b, exec (.sltu f) s = runForm 0x11 f s b := by
  rw [exec_sltu]; unfold execSltu scalarOp; exact ⟨_, rfl⟩
theorem form_sltiu (f : Form) (s : State) : ∃ b, exec (.sltiu f) s = runForm 0x11 f s b := by
  rw [exec_sltiu]; unfold execSltiu scalarOp; exact ⟨_, rfl⟩
theorem form_min (f : Form) (s : State) : ∃ b, exec (.min f) s = runForm 0x12 f s b := by
  rw [exec_min]; unfold execMin scalarOp; exact ⟨_, rfl⟩
theorem form_max (f : Form) (s : State) : ∃ b, exec (.max f) s = runForm 0x13 f s b := by
  rw [exec_max]; unfold execMax scalarOp; exact ⟨_, rfl⟩
theorem form_minu (f : Form) (s : State) : ∃ b, exec (.minu f) s = runForm 0x14 f s b := by
  rw [exec_minu]; unfold execMinu scalarOp; exact ⟨_, rfl⟩
theorem form_maxu (f : Form) (s : State) : ∃ b, exec (.maxu f) s = runForm 0x15 f s b := by
  rw [exec_maxu]; unfold execMaxu scalarOp; exact ⟨_, rfl⟩
theorem form_clz (f : Form) (s : State) : ∃ b, exec (.clz f) s = runForm 0x16 f s b := by
  rw [exec_clz]; unfold execClz scalarUnary; exact ⟨_, rfl⟩
theorem form_ctz (f : Form) (s : State) : ∃ b, exec (.ctz f) s = runForm 0x17 f s b := by
  rw [exec_ctz]; unfold execCtz scalarUnary; exact ⟨_, rfl⟩
theorem form_popc (f : Form) (s : State) : ∃ b, exec (.popc f) s = runForm 0x18 f s b := by
  rw [exec_popc]; unfold execPopc scalarUnary; exact ⟨_, rfl⟩
theorem form_brev (f : Form) (s : State) : ∃ b, exec (.brev f) s = runForm 0x19 f s b := by
  rw [exec_brev]; unfold execBrev scalarUnary; exact ⟨_, rfl⟩
theorem form_sel (f : Form) (s : State) : ∃ b, exec (.sel f) s = runForm 0x1A f s b := by
  rw [exec_sel]; unfold execSel; exact ⟨_, rfl⟩
theorem form_fadd (f : Form) (s : State) : ∃ b, exec (.fadd f) s = runForm 0x1B f s b := by
  rw [exec_fadd]; unfold execFadd scalarFloat; exact ⟨_, rfl⟩
theorem form_fsub (f : Form) (s : State) : ∃ b, exec (.fsub f) s = runForm 0x1C f s b := by
  rw [exec_fsub]; unfold execFsub scalarFloat; exact ⟨_, rfl⟩
theorem form_fmul (f : Form) (s : State) : ∃ b, exec (.fmul f) s = runForm 0x1D f s b := by
  rw [exec_fmul]; unfold execFmul scalarFloat; exact ⟨_, rfl⟩
theorem form_fma (f : Form) (s : State) : ∃ b, exec (.fma f) s = runForm 0x1E f s b := by
  rw [exec_fma]; unfold execFma; exact ⟨_, rfl⟩
theorem form_fdiv (f : Form) (s : State) : ∃ b, exec (.fdiv f) s = runForm 0x1F f s b := by
  rw [exec_fdiv]; unfold execFdiv; exact ⟨_, rfl⟩
theorem form_fsqrt (f : Form) (s : State) : ∃ b, exec (.fsqrt f) s = runForm 0x20 f s b := by
  rw [exec_fsqrt]; unfold execFsqrt; exact ⟨_, rfl⟩
theorem form_fmin (f : Form) (s : State) : ∃ b, exec (.fmin f) s = runForm 0x21 f s b := by
  rw [exec_fmin]; unfold execFmin scalarMinMax; exact ⟨_, rfl⟩
theorem form_fmax (f : Form) (s : State) : ∃ b, exec (.fmax f) s = runForm 0x22 f s b := by
  rw [exec_fmax]; unfold execFmax scalarMinMax; exact ⟨_, rfl⟩
theorem form_fcmp (f : Form) (s : State) : ∃ b, exec (.fcmp f) s = runForm 0x23 f s b := by
  rw [exec_fcmp]; unfold execFcmp; exact ⟨_, rfl⟩
theorem form_fcvt (f : Form) (s : State) : ∃ b, exec (.fcvt f) s = runForm 0x24 f s b := by
  rw [exec_fcvt]; unfold execFcvt; exact ⟨_, rfl⟩
theorem form_ficvt (f : Form) (s : State) : ∃ b, exec (.ficvt f) s = runForm 0x25 f s b := by
  rw [exec_ficvt]; unfold execFicvt; exact ⟨_, rfl⟩
theorem form_ifcvt (f : Form) (s : State) : ∃ b, exec (.ifcvt f) s = runForm 0x26 f s b := by
  rw [exec_ifcvt]; unfold execIfcvt; exact ⟨_, rfl⟩
theorem form_ldhi (f : Form) (s : State) : ∃ b, exec (.ldhi f) s = runForm 0x27 f s b := by
  rw [exec_ldhi]; unfold execLdhi; exact ⟨_, rfl⟩
theorem form_addpc (f : Form) (s : State) : ∃ b, exec (.addpc f) s = runForm 0x28 f s b := by
  rw [exec_addpc]; unfold execAddpc; exact ⟨_, rfl⟩
theorem form_jal (f : Form) (s : State) : ∃ b, exec (.jal f) s = runForm 0x29 f s b := by
  rw [exec_jal]; unfold execJal; exact ⟨_, rfl⟩
theorem form_jalr (f : Form) (s : State) : ∃ b, exec (.jalr f) s = runForm 0x2A f s b := by
  rw [exec_jalr]; unfold execJalr; exact ⟨_, rfl⟩
theorem form_beq (f : Form) (s : State) : ∃ b, exec (.beq f) s = runForm 0x2B f s b := by
  rw [exec_beq]; unfold execBeq branchIf; exact ⟨_, rfl⟩
theorem form_bne (f : Form) (s : State) : ∃ b, exec (.bne f) s = runForm 0x2C f s b := by
  rw [exec_bne]; unfold execBne branchIf; exact ⟨_, rfl⟩
theorem form_blt (f : Form) (s : State) : ∃ b, exec (.blt f) s = runForm 0x2D f s b := by
  rw [exec_blt]; unfold execBlt branchIf; exact ⟨_, rfl⟩
theorem form_bge (f : Form) (s : State) : ∃ b, exec (.bge f) s = runForm 0x2E f s b := by
  rw [exec_bge]; unfold execBge branchIf; exact ⟨_, rfl⟩
theorem form_bltu (f : Form) (s : State) : ∃ b, exec (.bltu f) s = runForm 0x2F f s b := by
  rw [exec_bltu]; unfold execBltu branchIf; exact ⟨_, rfl⟩
theorem form_bgeu (f : Form) (s : State) : ∃ b, exec (.bgeu f) s = runForm 0x30 f s b := by
  rw [exec_bgeu]; unfold execBgeu branchIf; exact ⟨_, rfl⟩
theorem form_bp (f : Form) (s : State) : ∃ b, exec (.bp f) s = runForm 0x31 f s b := by
  rw [exec_bp]; unfold execBp; exact ⟨_, rfl⟩
theorem form_setvl (f : Form) (s : State) : ∃ b, exec (.setvl f) s = runForm 0x40 f s b := by
  rw [exec_setvl]; unfold execSetvl; exact ⟨_, rfl⟩
theorem form_setvli (f : Form) (s : State) : ∃ b, exec (.setvli f) s = runForm 0x40 f s b := by
  rw [exec_setvli]; unfold execSetvli; exact ⟨_, rfl⟩
theorem form_vcfg (f : Form) (s : State) : ∃ b, exec (.vcfg f) s = runForm 0x41 f s b := by
  rw [exec_vcfg]; unfold execVcfg; exact ⟨_, rfl⟩
theorem form_vsetty (f : Form) (s : State) : ∃ b, exec (.vsetty f) s = runForm 0x42 f s b := by
  rw [exec_vsetty]; unfold execVsetty; exact ⟨_, rfl⟩
theorem form_vadd (f : Form) (s : State) : ∃ b, exec (.vadd f) s = runForm 0x43 f s b := by
  rw [exec_vadd]; unfold execVadd arith2 elemWise; exact ⟨_, rfl⟩
theorem form_vsub (f : Form) (s : State) : ∃ b, exec (.vsub f) s = runForm 0x44 f s b := by
  rw [exec_vsub]; unfold execVsub arith2 elemWise; exact ⟨_, rfl⟩
theorem form_vmul (f : Form) (s : State) : ∃ b, exec (.vmul f) s = runForm 0x45 f s b := by
  rw [exec_vmul]; unfold execVmul arith2 elemWise; exact ⟨_, rfl⟩
theorem form_vfma (f : Form) (s : State) : ∃ b, exec (.vfma f) s = runForm 0x46 f s b := by
  rw [exec_vfma]; unfold execVfma arith3 elemWise; exact ⟨_, rfl⟩
theorem form_vfms (f : Form) (s : State) : ∃ b, exec (.vfms f) s = runForm 0x47 f s b := by
  rw [exec_vfms]; unfold execVfms arith3 elemWise; exact ⟨_, rfl⟩
theorem form_vdiv (f : Form) (s : State) : ∃ b, exec (.vdiv f) s = runForm 0x48 f s b := by
  rw [exec_vdiv]; unfold execVdiv elemWise; exact ⟨_, rfl⟩
theorem form_vsqrt (f : Form) (s : State) : ∃ b, exec (.vsqrt f) s = runForm 0x49 f s b := by
  rw [exec_vsqrt]; unfold execVsqrt elemWise; exact ⟨_, rfl⟩
theorem form_vmin (f : Form) (s : State) : ∃ b, exec (.vmin f) s = runForm 0x4A f s b := by
  rw [exec_vmin]; unfold execVmin elemWise; exact ⟨_, rfl⟩
theorem form_vmax (f : Form) (s : State) : ∃ b, exec (.vmax f) s = runForm 0x4B f s b := by
  rw [exec_vmax]; unfold execVmax elemWise; exact ⟨_, rfl⟩
theorem form_vabs (f : Form) (s : State) : ∃ b, exec (.vabs f) s = runForm 0x4C f s b := by
  rw [exec_vabs]; unfold execVabs elemWise; exact ⟨_, rfl⟩
theorem form_vneg (f : Form) (s : State) : ∃ b, exec (.vneg f) s = runForm 0x4D f s b := by
  rw [exec_vneg]; unfold execVneg elemWise; exact ⟨_, rfl⟩
theorem form_vand (f : Form) (s : State) : ∃ b, exec (.vand f) s = runForm 0x4E f s b := by
  rw [exec_vand]; unfold execVand bits2 elemWise; exact ⟨_, rfl⟩
theorem form_vor (f : Form) (s : State) : ∃ b, exec (.vor f) s = runForm 0x4F f s b := by
  rw [exec_vor]; unfold execVor bits2 elemWise; exact ⟨_, rfl⟩
theorem form_vxor (f : Form) (s : State) : ∃ b, exec (.vxor f) s = runForm 0x50 f s b := by
  rw [exec_vxor]; unfold execVxor bits2 elemWise; exact ⟨_, rfl⟩
theorem form_vshl (f : Form) (s : State) : ∃ b, exec (.vshl f) s = runForm 0x51 f s b := by
  rw [exec_vshl]; unfold execVshl bits2 elemWise; exact ⟨_, rfl⟩
theorem form_vshr (f : Form) (s : State) : ∃ b, exec (.vshr f) s = runForm 0x52 f s b := by
  rw [exec_vshr]; unfold execVshr bits2 elemWise; exact ⟨_, rfl⟩
theorem form_vsra (f : Form) (s : State) : ∃ b, exec (.vsra f) s = runForm 0x53 f s b := by
  rw [exec_vsra]; unfold execVsra bits2 elemWise; exact ⟨_, rfl⟩
theorem form_vcmp (f : Form) (s : State) : ∃ b, exec (.vcmp f) s = runForm 0x54 f s b := by
  rw [exec_vcmp]; unfold execVcmp; exact ⟨_, rfl⟩
theorem form_vsel (f : Form) (s : State) : ∃ b, exec (.vsel f) s = runForm 0x55 f s b := by
  rw [exec_vsel]; unfold execVsel; exact ⟨_, rfl⟩
theorem form_vcvt (f : Form) (s : State) : ∃ b, exec (.vcvt f) s = runForm 0x56 f s b := by
  rw [exec_vcvt]; unfold execVcvt convertVec; exact ⟨_, rfl⟩
theorem form_vwid (f : Form) (s : State) : ∃ b, exec (.vwid f) s = runForm 0x57 f s b := by
  rw [exec_vwid]; unfold execVwid convertVec; exact ⟨_, rfl⟩
theorem form_vnar (f : Form) (s : State) : ∃ b, exec (.vnar f) s = runForm 0x58 f s b := by
  rw [exec_vnar]; unfold execVnar convertVec; exact ⟨_, rfl⟩
theorem form_vsplat (f : Form) (s : State) : ∃ b, exec (.vsplat f) s = runForm 0x59 f s b := by
  rw [exec_vsplat]; unfold execVsplat elemWise; exact ⟨_, rfl⟩
theorem form_vidx (f : Form) (s : State) : ∃ b, exec (.vidx f) s = runForm 0x5A f s b := by
  rw [exec_vidx]; unfold execVidx elemWise; exact ⟨_, rfl⟩
theorem form_vext (f : Form) (s : State) : ∃ b, exec (.vext f) s = runForm 0x5B f s b := by
  rw [exec_vext]; unfold execVext; exact ⟨_, rfl⟩
theorem form_vins (f : Form) (s : State) : ∃ b, exec (.vins f) s = runForm 0x5C f s b := by
  rw [exec_vins]; unfold execVins; exact ⟨_, rfl⟩
theorem form_vslide (f : Form) (s : State) : ∃ b, exec (.vslide f) s = runForm 0x5D f s b := by
  rw [exec_vslide]; unfold execVslide elemWise; exact ⟨_, rfl⟩
theorem form_vperm (f : Form) (s : State) : ∃ b, exec (.vperm f) s = runForm 0x5E f s b := by
  rw [exec_vperm]; unfold execVperm elemWise; exact ⟨_, rfl⟩
theorem form_vshape (f : Form) (s : State) : ∃ b, exec (.vshape f) s = runForm 0x5F f s b := by
  rw [exec_vshape]; unfold execVshape; exact ⟨_, rfl⟩
theorem form_vcompress (f : Form) (s : State) : ∃ b, exec (.vcompress f) s = runForm 0x60 f s b := by
  rw [exec_vcompress]; unfold execVcompress; exact ⟨_, rfl⟩
theorem form_vexpand (f : Form) (s : State) : ∃ b, exec (.vexpand f) s = runForm 0x61 f s b := by
  rw [exec_vexpand]; unfold execVexpand; exact ⟨_, rfl⟩
theorem form_vredsum (f : Form) (s : State) : ∃ b, exec (.vredsum f) s = runForm 0x62 f s b := by
  rw [exec_vredsum]; unfold execVredsum reduction; exact ⟨_, rfl⟩
theorem form_vredtsum (f : Form) (s : State) : ∃ b, exec (.vredtsum f) s = runForm 0x63 f s b := by
  rw [exec_vredtsum]; unfold execVredtsum reduction; exact ⟨_, rfl⟩
theorem form_vredmax (f : Form) (s : State) : ∃ b, exec (.vredmax f) s = runForm 0x64 f s b := by
  rw [exec_vredmax]; unfold execVredmax reduction; exact ⟨_, rfl⟩
theorem form_vredmin (f : Form) (s : State) : ∃ b, exec (.vredmin f) s = runForm 0x65 f s b := by
  rw [exec_vredmin]; unfold execVredmin reduction; exact ⟨_, rfl⟩
theorem form_vscan (f : Form) (s : State) : ∃ b, exec (.vscan f) s = runForm 0x66 f s b := by
  rw [exec_vscan]; unfold execVscan; exact ⟨_, rfl⟩
theorem form_vexpf (f : Form) (s : State) : ∃ b, exec (.vexpf f) s = runForm 0x67 f s b := by
  rw [exec_vexpf]; unfold execVexpf transFast elemWise; exact ⟨_, rfl⟩
theorem form_vexpx (f : Form) (s : State) : ∃ b, exec (.vexpx f) s = runForm 0x68 f s b := by
  rw [exec_vexpx]; unfold execVexpx transExact elemWise; exact ⟨_, rfl⟩
theorem form_vlogf (f : Form) (s : State) : ∃ b, exec (.vlogf f) s = runForm 0x69 f s b := by
  rw [exec_vlogf]; unfold execVlogf transFast elemWise; exact ⟨_, rfl⟩
theorem form_vlogx (f : Form) (s : State) : ∃ b, exec (.vlogx f) s = runForm 0x6A f s b := by
  rw [exec_vlogx]; unfold execVlogx transExact elemWise; exact ⟨_, rfl⟩
theorem form_vrcpf (f : Form) (s : State) : ∃ b, exec (.vrcpf f) s = runForm 0x6B f s b := by
  rw [exec_vrcpf]; unfold execVrcpf transFast elemWise; exact ⟨_, rfl⟩
theorem form_vrcpx (f : Form) (s : State) : ∃ b, exec (.vrcpx f) s = runForm 0x6C f s b := by
  rw [exec_vrcpx]; unfold execVrcpx transExact elemWise; exact ⟨_, rfl⟩
theorem form_vrsqf (f : Form) (s : State) : ∃ b, exec (.vrsqf f) s = runForm 0x6D f s b := by
  rw [exec_vrsqf]; unfold execVrsqf transFast elemWise; exact ⟨_, rfl⟩
theorem form_vrsqx (f : Form) (s : State) : ∃ b, exec (.vrsqx f) s = runForm 0x6E f s b := by
  rw [exec_vrsqx]; unfold execVrsqx transExact elemWise; exact ⟨_, rfl⟩
theorem form_vsinf (f : Form) (s : State) : ∃ b, exec (.vsinf f) s = runForm 0x6F f s b := by
  rw [exec_vsinf]; unfold execVsinf transFast elemWise; exact ⟨_, rfl⟩
theorem form_vsinx (f : Form) (s : State) : ∃ b, exec (.vsinx f) s = runForm 0x70 f s b := by
  rw [exec_vsinx]; unfold execVsinx transExact elemWise; exact ⟨_, rfl⟩
theorem form_vtanhf (f : Form) (s : State) : ∃ b, exec (.vtanhf f) s = runForm 0x71 f s b := by
  rw [exec_vtanhf]; unfold execVtanhf transFast elemWise; exact ⟨_, rfl⟩
theorem form_vtanhx (f : Form) (s : State) : ∃ b, exec (.vtanhx f) s = runForm 0x72 f s b := by
  rw [exec_vtanhx]; unfold execVtanhx transExact elemWise; exact ⟨_, rfl⟩
theorem form_pand (f : Form) (s : State) : ∃ b, exec (.pand f) s = runForm 0x73 f s b := by
  rw [exec_pand]; unfold execPand predOp; exact ⟨_, rfl⟩
theorem form_por (f : Form) (s : State) : ∃ b, exec (.por f) s = runForm 0x74 f s b := by
  rw [exec_por]; unfold execPor predOp; exact ⟨_, rfl⟩
theorem form_pxor (f : Form) (s : State) : ∃ b, exec (.pxor f) s = runForm 0x75 f s b := by
  rw [exec_pxor]; unfold execPxor predOp; exact ⟨_, rfl⟩
theorem form_pandn (f : Form) (s : State) : ∃ b, exec (.pandn f) s = runForm 0x76 f s b := by
  rw [exec_pandn]; unfold execPandn predOp; exact ⟨_, rfl⟩
theorem form_ppopc (f : Form) (s : State) : ∃ b, exec (.ppopc f) s = runForm 0x77 f s b := by
  rw [exec_ppopc]; unfold execPpopc; exact ⟨_, rfl⟩
theorem form_pfirst (f : Form) (s : State) : ∃ b, exec (.pfirst f) s = runForm 0x78 f s b := by
  rw [exec_pfirst]; unfold execPfirst; exact ⟨_, rfl⟩
theorem form_pbrk (f : Form) (s : State) : ∃ b, exec (.pbrk f) s = runForm 0x79 f s b := by
  rw [exec_pbrk]; unfold execPbrk; exact ⟨_, rfl⟩
theorem form_pfromx (f : Form) (s : State) : ∃ b, exec (.pfromx f) s = runForm 0x7A f s b := by
  rw [exec_pfromx]; unfold execPfromx; exact ⟨_, rfl⟩
theorem form_vpfetch (f : Form) (s : State) : ∃ b, exec (.vpfetch f) s = runForm 0x7B f s b := by
  rw [exec_vpfetch]; unfold execVpfetch; exact ⟨_, rfl⟩
theorem form_vpjoin (f : Form) (s : State) : ∃ b, exec (.vpjoin f) s = runForm 0x7C f s b := by
  rw [exec_vpjoin]; unfold execVpjoin; exact ⟨_, rfl⟩
theorem form_vdot (f : Form) (s : State) : ∃ b, exec (.vdot f) s = runForm 0x7D f s b := by
  rw [exec_vdot]; unfold execVdot; exact ⟨_, rfl⟩
theorem form_fnset (f : Form) (s : State) : ∃ b, exec (.fnset f) s = runForm 0x80 f s b := by
  rw [exec_fnset]; unfold execFnset; exact ⟨_, rfl⟩
theorem form_fnld (f : Form) (s : State) : ∃ b, exec (.fnld f) s = runForm 0x81 f s b := by
  rw [exec_fnld]; unfold execFnld; exact ⟨_, rfl⟩
theorem form_fnst (f : Form) (s : State) : ∃ b, exec (.fnst f) s = runForm 0x82 f s b := by
  rw [exec_fnst]; unfold execFnst; exact ⟨_, rfl⟩
theorem form_fnmov (f : Form) (s : State) : ∃ b, exec (.fnmov f) s = runForm 0x83 f s b := by
  rw [exec_fnmov]; unfold execFnmov; exact ⟨_, rfl⟩
theorem form_fnadd (f : Form) (s : State) : ∃ b, exec (.fnadd f) s = runForm 0x84 f s b := by
  rw [exec_fnadd]; unfold execFnadd; exact ⟨_, rfl⟩
theorem form_fnsub (f : Form) (s : State) : ∃ b, exec (.fnsub f) s = runForm 0x85 f s b := by
  rw [exec_fnsub]; unfold execFnsub; exact ⟨_, rfl⟩
theorem form_fnmul (f : Form) (s : State) : ∃ b, exec (.fnmul f) s = runForm 0x86 f s b := by
  rw [exec_fnmul]; unfold execFnmul; exact ⟨_, rfl⟩
theorem form_fnscl (f : Form) (s : State) : ∃ b, exec (.fnscl f) s = runForm 0x87 f s b := by
  rw [exec_fnscl]; unfold execFnscl; exact ⟨_, rfl⟩
theorem form_fnaxpy (f : Form) (s : State) : ∃ b, exec (.fnaxpy f) s = runForm 0x88 f s b := by
  rw [exec_fnaxpy]; unfold execFnaxpy; exact ⟨_, rfl⟩
theorem form_fndiff (f : Form) (s : State) : ∃ b, exec (.fndiff f) s = runForm 0x89 f s b := by
  rw [exec_fndiff]; unfold execFndiff; exact ⟨_, rfl⟩
theorem form_fnint (f : Form) (s : State) : ∃ b, exec (.fnint f) s = runForm 0x8A f s b := by
  rw [exec_fnint]; unfold execFnint; exact ⟨_, rfl⟩
theorem form_fnquad (f : Form) (s : State) : ∃ b, exec (.fnquad f) s = runForm 0x8B f s b := by
  rw [exec_fnquad]; unfold execFnquad; exact ⟨_, rfl⟩
theorem form_fnproj (f : Form) (s : State) : ∃ b, exec (.fnproj f) s = runForm 0x8C f s b := by
  rw [exec_fnproj]; unfold execFnproj; exact ⟨_, rfl⟩
theorem form_fnbasis (f : Form) (s : State) : ∃ b, exec (.fnbasis f) s = runForm 0x8D f s b := by
  rw [exec_fnbasis]; unfold execFnbasis; exact ⟨_, rfl⟩
theorem form_fntrace (f : Form) (s : State) : ∃ b, exec (.fntrace f) s = runForm 0x8E f s b := by
  rw [exec_fntrace]; unfold execFntrace; exact ⟨_, rfl⟩
theorem form_fneval (f : Form) (s : State) : ∃ b, exec (.fneval f) s = runForm 0x8F f s b := by
  rw [exec_fneval]; unfold execFneval; exact ⟨_, rfl⟩
theorem form_fnlift (f : Form) (s : State) : ∃ b, exec (.fnlift f) s = runForm 0x90 f s b := by
  rw [exec_fnlift]; unfold execFnlift; exact ⟨_, rfl⟩
theorem form_fndeg (f : Form) (s : State) : ∃ b, exec (.fndeg f) s = runForm 0x91 f s b := by
  rw [exec_fndeg]; unfold execFndeg; exact ⟨_, rfl⟩
theorem form_fnnorm (f : Form) (s : State) : ∃ b, exec (.fnnorm f) s = runForm 0x92 f s b := by
  rw [exec_fnnorm]; unfold execFnnorm; exact ⟨_, rfl⟩
theorem form_stl (f : Form) (s : State) : ∃ b, exec (.stl f) s = runForm 0xA0 f s b := by
  rw [exec_stl]; unfold execStl; exact ⟨_, rfl⟩
theorem form_tcfg (f : Form) (s : State) : ∃ b, exec (.tcfg f) s = runForm 0xA1 f s b := by
  rw [exec_tcfg]; unfold execTcfg tileForm; exact ⟨_, rfl⟩
theorem form_tzero (f : Form) (s : State) : ∃ b, exec (.tzero f) s = runForm 0xA2 f s b := by
  rw [exec_tzero]; unfold execTzero tileForm; exact ⟨_, rfl⟩
theorem form_tld (f : Form) (s : State) : ∃ b, exec (.tld f) s = runForm 0xA3 f s b := by
  rw [exec_tld]; unfold execTld tileForm; exact ⟨_, rfl⟩
theorem form_tldf (f : Form) (s : State) : ∃ b, exec (.tldf f) s = runForm 0xA4 f s b := by
  rw [exec_tldf]; unfold execTldf tileForm; exact ⟨_, rfl⟩
theorem form_tst (f : Form) (s : State) : ∃ b, exec (.tst f) s = runForm 0xA5 f s b := by
  rw [exec_tst]; unfold execTst tileForm; exact ⟨_, rfl⟩
theorem form_tstf (f : Form) (s : State) : ∃ b, exec (.tstf f) s = runForm 0xA6 f s b := by
  rw [exec_tstf]; unfold execTstf tileForm; exact ⟨_, rfl⟩
theorem form_tmm (f : Form) (s : State) : ∃ b, exec (.tmm f) s = runForm 0xA7 f s b := by
  rw [exec_tmm]; unfold execTmm tileForm; exact ⟨_, rfl⟩
theorem form_tlmm (f : Form) (s : State) : ∃ b, exec (.tlmm f) s = runForm 0xA8 f s b := by
  rw [exec_tlmm]; unfold execTlmm tileForm; exact ⟨_, rfl⟩
theorem form_tadd (f : Form) (s : State) : ∃ b, exec (.tadd f) s = runForm 0xA9 f s b := by
  rw [exec_tadd]; unfold execTadd tileForm; exact ⟨_, rfl⟩
theorem form_trecomp (f : Form) (s : State) : ∃ b, exec (.trecomp f) s = runForm 0xAA f s b := by
  rw [exec_trecomp]; unfold execTrecomp tileForm; exact ⟨_, rfl⟩
theorem form_tdense (f : Form) (s : State) : ∃ b, exec (.tdense f) s = runForm 0xAB f s b := by
  rw [exec_tdense]; unfold execTdense tileForm; exact ⟨_, rfl⟩
theorem form_tcomp (f : Form) (s : State) : ∃ b, exec (.tcomp f) s = runForm 0xAC f s b := by
  rw [exec_tcomp]; unfold execTcomp tileForm; exact ⟨_, rfl⟩
theorem form_tscale (f : Form) (s : State) : ∃ b, exec (.tscale f) s = runForm 0xAD f s b := by
  rw [exec_tscale]; unfold execTscale tileForm; exact ⟨_, rfl⟩
theorem form_tcvt (f : Form) (s : State) : ∃ b, exec (.tcvt f) s = runForm 0xAE f s b := by
  rw [exec_tcvt]; unfold execTcvt tileForm; exact ⟨_, rfl⟩
theorem form_trank (f : Form) (s : State) : ∃ b, exec (.trank f) s = runForm 0xAF f s b := by
  rw [exec_trank]; unfold execTrank tileForm; exact ⟨_, rfl⟩
theorem form_tsync (f : Form) (s : State) : ∃ b, exec (.tsync f) s = runForm 0xB0 f s b := by
  rw [exec_tsync]; unfold execTsync tileForm; exact ⟨_, rfl⟩
theorem form_ld (f : Form) (s : State) : ∃ b, exec (.ld f) s = runForm 0xC0 f s b := by
  rw [exec_ld]; unfold execLd; exact ⟨_, rfl⟩
theorem form_st (f : Form) (s : State) : ∃ b, exec (.st f) s = runForm 0xC1 f s b := by
  rw [exec_st]; unfold execSt; exact ⟨_, rfl⟩
theorem form_vld (f : Form) (s : State) : ∃ b, exec (.vld f) s = runForm 0xC2 f s b := by
  rw [exec_vld]; unfold execVld; exact ⟨_, rfl⟩
theorem form_vst (f : Form) (s : State) : ∃ b, exec (.vst f) s = runForm 0xC3 f s b := by
  rw [exec_vst]; unfold execVst; exact ⟨_, rfl⟩
theorem form_vldff (f : Form) (s : State) : ∃ b, exec (.vldff f) s = runForm 0xC4 f s b := by
  rw [exec_vldff]; unfold execVldff; exact ⟨_, rfl⟩
theorem form_vldp (f : Form) (s : State) : ∃ b, exec (.vldp f) s = runForm 0xC5 f s b := by
  rw [exec_vldp]; unfold execVldp; exact ⟨_, rfl⟩
theorem form_mfrset (f : Form) (s : State) : ∃ b, exec (.mfrset f) s = runForm 0xC6 f s b := by
  rw [exec_mfrset]; unfold execMfrset; exact ⟨_, rfl⟩
theorem form_sbind (f : Form) (s : State) : ∃ b, exec (.sbind f) s = runForm 0xC7 f s b := by
  rw [exec_sbind]; unfold execSbind; exact ⟨_, rfl⟩
theorem form_sfree (f : Form) (s : State) : ∃ b, exec (.sfree f) s = runForm 0xC8 f s b := by
  rw [exec_sfree]; unfold execSfree; exact ⟨_, rfl⟩
theorem form_copy (f : Form) (s : State) : ∃ b, exec (.copy f) s = runForm 0xC9 f s b := by
  rw [exec_copy]; unfold execCopy; exact ⟨_, rfl⟩
theorem form_chsend (f : Form) (s : State) : ∃ b, exec (.chsend f) s = runForm 0xCA f s b := by
  rw [exec_chsend]; unfold execChsend; exact ⟨_, rfl⟩
theorem form_chrecv (f : Form) (s : State) : ∃ b, exec (.chrecv f) s = runForm 0xCB f s b := by
  rw [exec_chrecv]; unfold execChrecv; exact ⟨_, rfl⟩
theorem form_chcfg (f : Form) (s : State) : ∃ b, exec (.chcfg f) s = runForm 0xCC f s b := by
  rw [exec_chcfg]; unfold execChcfg; exact ⟨_, rfl⟩
theorem form_amoadd (f : Form) (s : State) : ∃ b, exec (.amoadd f) s = runForm 0xCD f s b := by
  rw [exec_amoadd]; unfold execAmoadd amoForm; exact ⟨_, rfl⟩
theorem form_amofadd (f : Form) (s : State) : ∃ b, exec (.amofadd f) s = runForm 0xCE f s b := by
  rw [exec_amofadd]; unfold execAmofadd amoForm; exact ⟨_, rfl⟩
theorem form_amomax (f : Form) (s : State) : ∃ b, exec (.amomax f) s = runForm 0xCF f s b := by
  rw [exec_amomax]; unfold execAmomax amoForm; exact ⟨_, rfl⟩
theorem form_amomin (f : Form) (s : State) : ∃ b, exec (.amomin f) s = runForm 0xD0 f s b := by
  rw [exec_amomin]; unfold execAmomin amoForm; exact ⟨_, rfl⟩
theorem form_amoand (f : Form) (s : State) : ∃ b, exec (.amoand f) s = runForm 0xD1 f s b := by
  rw [exec_amoand]; unfold execAmoand amoForm; exact ⟨_, rfl⟩
theorem form_amoor (f : Form) (s : State) : ∃ b, exec (.amoor f) s = runForm 0xD2 f s b := by
  rw [exec_amoor]; unfold execAmoor amoForm; exact ⟨_, rfl⟩
theorem form_amoswap (f : Form) (s : State) : ∃ b, exec (.amoswap f) s = runForm 0xD3 f s b := by
  rw [exec_amoswap]; unfold execAmoswap amoForm; exact ⟨_, rfl⟩
theorem form_amocas (f : Form) (s : State) : ∃ b, exec (.amocas f) s = runForm 0xD4 f s b := by
  rw [exec_amocas]; unfold execAmocas amoForm; exact ⟨_, rfl⟩
theorem form_amofmax (f : Form) (s : State) : ∃ b, exec (.amofmax f) s = runForm 0xD5 f s b := by
  rw [exec_amofmax]; unfold execAmofmax amoForm; exact ⟨_, rfl⟩
theorem form_fence (f : Form) (s : State) : ∃ b, exec (.fence f) s = runForm 0xD6 f s b := by
  rw [exec_fence]; unfold execFence; exact ⟨_, rfl⟩
theorem form_waitc (f : Form) (s : State) : ∃ b, exec (.waitc f) s = runForm 0xD7 f s b := by
  rw [exec_waitc]; unfold execWaitc; exact ⟨_, rfl⟩
theorem form_tlwait (f : Form) (s : State) : ∃ b, exec (.tlwait f) s = runForm 0xD8 f s b := by
  rw [exec_tlwait]; unfold execTlwait; exact ⟨_, rfl⟩
theorem form_tlread (f : Form) (s : State) : ∃ b, exec (.tlread f) s = runForm 0xD9 f s b := by
  rw [exec_tlread]; unfold execTlread; exact ⟨_, rfl⟩
theorem form_stend (f : Form) (s : State) : ∃ b, exec (.stend f) s = runForm 0xDA f s b := by
  rw [exec_stend]; unfold execStend; exact ⟨_, rfl⟩
theorem form_bar (f : Form) (s : State) : ∃ b, exec (.bar f) s = runForm 0xE0 f s b := by
  rw [exec_bar]; unfold execBar; exact ⟨_, rfl⟩
theorem form_launch (f : Form) (s : State) : ∃ b, exec (.launch f) s = runForm 0xE1 f s b := by
  rw [exec_launch]; unfold execLaunch launchForm; exact ⟨_, rfl⟩
theorem form_launchNb (f : Form) (s : State) : ∃ b, exec (.launchNb f) s = runForm 0xE1 f s b := by
  rw [exec_launchNb]; unfold execLaunchNb launchForm; exact ⟨_, rfl⟩
theorem form_join (f : Form) (s : State) : ∃ b, exec (.join f) s = runForm 0xE2 f s b := by
  rw [exec_join]; unfold execJoin; exact ⟨_, rfl⟩
theorem form_cancel (f : Form) (s : State) : ∃ b, exec (.cancel f) s = runForm 0xE3 f s b := by
  rw [exec_cancel]; unfold execCancel; exact ⟨_, rfl⟩
theorem form_ccread (f : Form) (s : State) : ∃ b, exec (.ccread f) s = runForm 0xE4 f s b := by
  rw [exec_ccread]; unfold execCcread; exact ⟨_, rfl⟩
theorem form_yield (f : Form) (s : State) : ∃ b, exec (.yield f) s = runForm 0xE5 f s b := by
  rw [exec_yield]; unfold execYield; exact ⟨_, rfl⟩
theorem form_lanepart (f : Form) (s : State) : ∃ b, exec (.lanepart f) s = runForm 0xE6 f s b := by
  rw [exec_lanepart]; unfold execLanepart; exact ⟨_, rfl⟩
theorem form_coll (f : Form) (s : State) : ∃ b, exec (.coll f) s = runForm 0xE7 f s b := by
  rw [exec_coll]; unfold execColl; exact ⟨_, rfl⟩
theorem form_xsend (f : Form) (s : State) : ∃ b, exec (.xsend f) s = runForm 0xE8 f s b := by
  rw [exec_xsend]; unfold execXsend; exact ⟨_, rfl⟩
theorem form_exit (f : Form) (s : State) : ∃ b, exec (.exit f) s = runForm 0xE9 f s b := by
  rw [exec_exit]; unfold execExit; exact ⟨_, rfl⟩
theorem form_dload (f : Form) (s : State) : ∃ b, exec (.dload f) s = runForm 0xF0 f s b := by
  rw [exec_dload]; unfold execDload; exact ⟨_, rfl⟩
theorem form_dsync (f : Form) (s : State) : ∃ b, exec (.dsync f) s = runForm 0xF1 f s b := by
  rw [exec_dsync]; unfold execDsync; exact ⟨_, rfl⟩
theorem form_dread (f : Form) (s : State) : ∃ b, exec (.dread f) s = runForm 0xF2 f s b := by
  rw [exec_dread]; unfold execDread; exact ⟨_, rfl⟩
theorem form_sysrd (f : Form) (s : State) : ∃ b, exec (.sysrd f) s = runForm 0xF3 f s b := by
  rw [exec_sysrd]; unfold execSysrd; exact ⟨_, rfl⟩
theorem form_syswr (f : Form) (s : State) : ∃ b, exec (.syswr f) s = runForm 0xF4 f s b := by
  rw [exec_syswr]; unfold execSyswr; exact ⟨_, rfl⟩
theorem form_sysset (f : Form) (s : State) : ∃ b, exec (.sysset f) s = runForm 0xF5 f s b := by
  rw [exec_sysset]; unfold execSysset; exact ⟨_, rfl⟩
theorem form_sysclr (f : Form) (s : State) : ∃ b, exec (.sysclr f) s = runForm 0xF6 f s b := by
  rw [exec_sysclr]; unfold execSysclr; exact ⟨_, rfl⟩
theorem form_svc (f : Form) (s : State) : ∃ b, exec (.svc f) s = runForm 0xF7 f s b := by
  rw [exec_svc]; unfold execSvc; exact ⟨_, rfl⟩
theorem form_trap (f : Form) (s : State) : ∃ b, exec (.trap f) s = runForm 0xF8 f s b := by
  rw [exec_trap]; unfold execTrap; exact ⟨_, rfl⟩
theorem form_tret (f : Form) (s : State) : ∃ b, exec (.tret f) s = runForm 0xF9 f s b := by
  rw [exec_tret]; unfold execTret; exact ⟨_, rfl⟩
theorem form_tlbinv (f : Form) (s : State) : ∃ b, exec (.tlbinv f) s = runForm 0xFA f s b := by
  rw [exec_tlbinv]; unfold execTlbinv; exact ⟨_, rfl⟩
theorem form_brkpt (f : Form) (s : State) : ∃ b, exec (.brkpt f) s = runForm 0xFB f s b := by
  rw [exec_brkpt]; unfold execBrkpt; exact ⟨_, rfl⟩

/-- What a thread's instruction is: the checks of its opcode and form, and a body. -/
theorem exec_runForm : ∀ (i : Instr) (opc : Nat) (f : Form) (s : State), longOf i = some (opc, f) →
    ∃ b, exec i s = runForm opc f s b
  | .udf f, _, _, s, rfl => form_udf f s
  | .add f, _, _, s, rfl => form_add f s
  | .sub f, _, _, s, rfl => form_sub f s
  | .and f, _, _, s, rfl => form_and f s
  | .or f, _, _, s, rfl => form_or f s
  | .xor f, _, _, s, rfl => form_xor f s
  | .shl f, _, _, s, rfl => form_shl f s
  | .shr f, _, _, s, rfl => form_shr f s
  | .sra f, _, _, s, rfl => form_sra f s
  | .mul f, _, _, s, rfl => form_mul f s
  | .mulh f, _, _, s, rfl => form_mulh f s
  | .mulhu f, _, _, s, rfl => form_mulhu f s
  | .div f, _, _, s, rfl => form_div f s
  | .divu f, _, _, s, rfl => form_divu f s
  | .rem f, _, _, s, rfl => form_rem f s
  | .remu f, _, _, s, rfl => form_remu f s
  | .slt f, _, _, s, rfl => form_slt f s
  | .sltu f, _, _, s, rfl => form_sltu f s
  | .min f, _, _, s, rfl => form_min f s
  | .max f, _, _, s, rfl => form_max f s
  | .minu f, _, _, s, rfl => form_minu f s
  | .maxu f, _, _, s, rfl => form_maxu f s
  | .clz f, _, _, s, rfl => form_clz f s
  | .ctz f, _, _, s, rfl => form_ctz f s
  | .popc f, _, _, s, rfl => form_popc f s
  | .brev f, _, _, s, rfl => form_brev f s
  | .sel f, _, _, s, rfl => form_sel f s
  | .fadd f, _, _, s, rfl => form_fadd f s
  | .fsub f, _, _, s, rfl => form_fsub f s
  | .fmul f, _, _, s, rfl => form_fmul f s
  | .fma f, _, _, s, rfl => form_fma f s
  | .fdiv f, _, _, s, rfl => form_fdiv f s
  | .fsqrt f, _, _, s, rfl => form_fsqrt f s
  | .fmin f, _, _, s, rfl => form_fmin f s
  | .fmax f, _, _, s, rfl => form_fmax f s
  | .fcmp f, _, _, s, rfl => form_fcmp f s
  | .fcvt f, _, _, s, rfl => form_fcvt f s
  | .ficvt f, _, _, s, rfl => form_ficvt f s
  | .ifcvt f, _, _, s, rfl => form_ifcvt f s
  | .addi f, _, _, s, rfl => form_addi f s
  | .andi f, _, _, s, rfl => form_andi f s
  | .ori f, _, _, s, rfl => form_ori f s
  | .xori f, _, _, s, rfl => form_xori f s
  | .shli f, _, _, s, rfl => form_shli f s
  | .shri f, _, _, s, rfl => form_shri f s
  | .srai f, _, _, s, rfl => form_srai f s
  | .slti f, _, _, s, rfl => form_slti f s
  | .sltiu f, _, _, s, rfl => form_sltiu f s
  | .muli f, _, _, s, rfl => form_muli f s
  | .setvli f, _, _, s, rfl => form_setvli f s
  | .ldhi f, _, _, s, rfl => form_ldhi f s
  | .addpc f, _, _, s, rfl => form_addpc f s
  | .jalr f, _, _, s, rfl => form_jalr f s
  | .jal f, _, _, s, rfl => form_jal f s
  | .beq f, _, _, s, rfl => form_beq f s
  | .bne f, _, _, s, rfl => form_bne f s
  | .blt f, _, _, s, rfl => form_blt f s
  | .bge f, _, _, s, rfl => form_bge f s
  | .bltu f, _, _, s, rfl => form_bltu f s
  | .bgeu f, _, _, s, rfl => form_bgeu f s
  | .bp f, _, _, s, rfl => form_bp f s
  | .setvl f, _, _, s, rfl => form_setvl f s
  | .vcfg f, _, _, s, rfl => form_vcfg f s
  | .vsetty f, _, _, s, rfl => form_vsetty f s
  | .vadd f, _, _, s, rfl => form_vadd f s
  | .vsub f, _, _, s, rfl => form_vsub f s
  | .vmul f, _, _, s, rfl => form_vmul f s
  | .vfma f, _, _, s, rfl => form_vfma f s
  | .vfms f, _, _, s, rfl => form_vfms f s
  | .vdiv f, _, _, s, rfl => form_vdiv f s
  | .vsqrt f, _, _, s, rfl => form_vsqrt f s
  | .vmin f, _, _, s, rfl => form_vmin f s
  | .vmax f, _, _, s, rfl => form_vmax f s
  | .vabs f, _, _, s, rfl => form_vabs f s
  | .vneg f, _, _, s, rfl => form_vneg f s
  | .vand f, _, _, s, rfl => form_vand f s
  | .vor f, _, _, s, rfl => form_vor f s
  | .vxor f, _, _, s, rfl => form_vxor f s
  | .vshl f, _, _, s, rfl => form_vshl f s
  | .vshr f, _, _, s, rfl => form_vshr f s
  | .vsra f, _, _, s, rfl => form_vsra f s
  | .vcmp f, _, _, s, rfl => form_vcmp f s
  | .vsel f, _, _, s, rfl => form_vsel f s
  | .vcvt f, _, _, s, rfl => form_vcvt f s
  | .vwid f, _, _, s, rfl => form_vwid f s
  | .vnar f, _, _, s, rfl => form_vnar f s
  | .vsplat f, _, _, s, rfl => form_vsplat f s
  | .vidx f, _, _, s, rfl => form_vidx f s
  | .vext f, _, _, s, rfl => form_vext f s
  | .vins f, _, _, s, rfl => form_vins f s
  | .vslide f, _, _, s, rfl => form_vslide f s
  | .vperm f, _, _, s, rfl => form_vperm f s
  | .vshape f, _, _, s, rfl => form_vshape f s
  | .vcompress f, _, _, s, rfl => form_vcompress f s
  | .vexpand f, _, _, s, rfl => form_vexpand f s
  | .vredsum f, _, _, s, rfl => form_vredsum f s
  | .vredtsum f, _, _, s, rfl => form_vredtsum f s
  | .vredmax f, _, _, s, rfl => form_vredmax f s
  | .vredmin f, _, _, s, rfl => form_vredmin f s
  | .vscan f, _, _, s, rfl => form_vscan f s
  | .vexpf f, _, _, s, rfl => form_vexpf f s
  | .vexpx f, _, _, s, rfl => form_vexpx f s
  | .vlogf f, _, _, s, rfl => form_vlogf f s
  | .vlogx f, _, _, s, rfl => form_vlogx f s
  | .vrcpf f, _, _, s, rfl => form_vrcpf f s
  | .vrcpx f, _, _, s, rfl => form_vrcpx f s
  | .vrsqf f, _, _, s, rfl => form_vrsqf f s
  | .vrsqx f, _, _, s, rfl => form_vrsqx f s
  | .vsinf f, _, _, s, rfl => form_vsinf f s
  | .vsinx f, _, _, s, rfl => form_vsinx f s
  | .vtanhf f, _, _, s, rfl => form_vtanhf f s
  | .vtanhx f, _, _, s, rfl => form_vtanhx f s
  | .pand f, _, _, s, rfl => form_pand f s
  | .por f, _, _, s, rfl => form_por f s
  | .pxor f, _, _, s, rfl => form_pxor f s
  | .pandn f, _, _, s, rfl => form_pandn f s
  | .ppopc f, _, _, s, rfl => form_ppopc f s
  | .pfirst f, _, _, s, rfl => form_pfirst f s
  | .pbrk f, _, _, s, rfl => form_pbrk f s
  | .pfromx f, _, _, s, rfl => form_pfromx f s
  | .vpfetch f, _, _, s, rfl => form_vpfetch f s
  | .vpjoin f, _, _, s, rfl => form_vpjoin f s
  | .vdot f, _, _, s, rfl => form_vdot f s
  | .fnset f, _, _, s, rfl => form_fnset f s
  | .fnld f, _, _, s, rfl => form_fnld f s
  | .fnst f, _, _, s, rfl => form_fnst f s
  | .fnmov f, _, _, s, rfl => form_fnmov f s
  | .fnadd f, _, _, s, rfl => form_fnadd f s
  | .fnsub f, _, _, s, rfl => form_fnsub f s
  | .fnmul f, _, _, s, rfl => form_fnmul f s
  | .fnscl f, _, _, s, rfl => form_fnscl f s
  | .fnaxpy f, _, _, s, rfl => form_fnaxpy f s
  | .fndiff f, _, _, s, rfl => form_fndiff f s
  | .fnint f, _, _, s, rfl => form_fnint f s
  | .fnquad f, _, _, s, rfl => form_fnquad f s
  | .fnproj f, _, _, s, rfl => form_fnproj f s
  | .fnbasis f, _, _, s, rfl => form_fnbasis f s
  | .fntrace f, _, _, s, rfl => form_fntrace f s
  | .fneval f, _, _, s, rfl => form_fneval f s
  | .fnlift f, _, _, s, rfl => form_fnlift f s
  | .fndeg f, _, _, s, rfl => form_fndeg f s
  | .fnnorm f, _, _, s, rfl => form_fnnorm f s
  | .stl f, _, _, s, rfl => form_stl f s
  | .tcfg f, _, _, s, rfl => form_tcfg f s
  | .tzero f, _, _, s, rfl => form_tzero f s
  | .tld f, _, _, s, rfl => form_tld f s
  | .tldf f, _, _, s, rfl => form_tldf f s
  | .tst f, _, _, s, rfl => form_tst f s
  | .tstf f, _, _, s, rfl => form_tstf f s
  | .tmm f, _, _, s, rfl => form_tmm f s
  | .tlmm f, _, _, s, rfl => form_tlmm f s
  | .tadd f, _, _, s, rfl => form_tadd f s
  | .trecomp f, _, _, s, rfl => form_trecomp f s
  | .tdense f, _, _, s, rfl => form_tdense f s
  | .tcomp f, _, _, s, rfl => form_tcomp f s
  | .tscale f, _, _, s, rfl => form_tscale f s
  | .tcvt f, _, _, s, rfl => form_tcvt f s
  | .trank f, _, _, s, rfl => form_trank f s
  | .tsync f, _, _, s, rfl => form_tsync f s
  | .ld f, _, _, s, rfl => form_ld f s
  | .st f, _, _, s, rfl => form_st f s
  | .vld f, _, _, s, rfl => form_vld f s
  | .vst f, _, _, s, rfl => form_vst f s
  | .vldff f, _, _, s, rfl => form_vldff f s
  | .vldp f, _, _, s, rfl => form_vldp f s
  | .chsend f, _, _, s, rfl => form_chsend f s
  | .chrecv f, _, _, s, rfl => form_chrecv f s
  | .mfrset f, _, _, s, rfl => form_mfrset f s
  | .sbind f, _, _, s, rfl => form_sbind f s
  | .sfree f, _, _, s, rfl => form_sfree f s
  | .copy f, _, _, s, rfl => form_copy f s
  | .chcfg f, _, _, s, rfl => form_chcfg f s
  | .amoadd f, _, _, s, rfl => form_amoadd f s
  | .amofadd f, _, _, s, rfl => form_amofadd f s
  | .amomax f, _, _, s, rfl => form_amomax f s
  | .amomin f, _, _, s, rfl => form_amomin f s
  | .amoand f, _, _, s, rfl => form_amoand f s
  | .amoor f, _, _, s, rfl => form_amoor f s
  | .amoswap f, _, _, s, rfl => form_amoswap f s
  | .amocas f, _, _, s, rfl => form_amocas f s
  | .amofmax f, _, _, s, rfl => form_amofmax f s
  | .fence f, _, _, s, rfl => form_fence f s
  | .waitc f, _, _, s, rfl => form_waitc f s
  | .tlwait f, _, _, s, rfl => form_tlwait f s
  | .tlread f, _, _, s, rfl => form_tlread f s
  | .stend f, _, _, s, rfl => form_stend f s
  | .bar f, _, _, s, rfl => form_bar f s
  | .launch f, _, _, s, rfl => form_launch f s
  | .launchNb f, _, _, s, rfl => form_launchNb f s
  | .join f, _, _, s, rfl => form_join f s
  | .cancel f, _, _, s, rfl => form_cancel f s
  | .ccread f, _, _, s, rfl => form_ccread f s
  | .yield f, _, _, s, rfl => form_yield f s
  | .lanepart f, _, _, s, rfl => form_lanepart f s
  | .coll f, _, _, s, rfl => form_coll f s
  | .xsend f, _, _, s, rfl => form_xsend f s
  | .exit f, _, _, s, rfl => form_exit f s
  | .dload f, _, _, s, rfl => form_dload f s
  | .dsync f, _, _, s, rfl => form_dsync f s
  | .dread f, _, _, s, rfl => form_dread f s
  | .sysrd f, _, _, s, rfl => form_sysrd f s
  | .syswr f, _, _, s, rfl => form_syswr f s
  | .sysset f, _, _, s, rfl => form_sysset f s
  | .sysclr f, _, _, s, rfl => form_sysclr f s
  | .svc f, _, _, s, rfl => form_svc f s
  | .trap f, _, _, s, rfl => form_trap f s
  | .tret f, _, _, s, rfl => form_tret f s
  | .tlbinv f, _, _, s, rfl => form_tlbinv f s
  | .brkpt f, _, _, s, rfl => form_brkpt f s
  | .dictionaryWord _ _ _ _, _, _, _, h => nomatch h
  | .stripAgeClose _, _, _, _, h => nomatch h
  | .engineCommandIssue _, _, _, _, h => nomatch h
  | .waitingContextReady _, _, _, _, h => nomatch h
  | .vpGroupYield _, _, _, _, h => nomatch h
  | .dictImageLoad _, _, _, _, h => nomatch h
  | .streamReadAhead _ _ _, _, _, _, h => nomatch h
  | .epochEnd _ _, _, _, _, h => nomatch h
  | .copyStart _ _, _, _, _, h => nomatch h
  | .copyComplete _ _, _, _, _, h => nomatch h
  | .tileOperationFire _, _, _, _, h => nomatch h
  | .tileOperationComplete _, _, _, _, h => nomatch h
  | .engineFaultDelivery _, _, _, _, h => nomatch h
  | .singleStepBreakpoint _, _, _, _, h => nomatch h
  | .rprSuspWrite _, _, _, _, h => nomatch h
  | .cpstatSuspWrite _ _, _, _, _, h => nomatch h
  | .vtrWrite _ _, _, _, _, h => nomatch h
  | .endunitWrite _, _, _, _, h => nomatch h
  | .ctxtblKick _, _, _, _, h => nomatch h
  | .unitPlacement _ _, _, _, _, h => nomatch h
  | .threadStart _, _, _, _, h => nomatch h
  | .priorityAging _ _, _, _, _, h => nomatch h
  | .preemption _, _, _, _, h => nomatch h
  | .quantumExpiry _ _, _, _, _, h => nomatch h
  | .idleSwitchOut _, _, _, _, h => nomatch h
  | .unitRestore _ _, _, _, _, h => nomatch h
  | .reclaimDeadlineExpiry _, _, _, _, h => nomatch h
  | .poolEntryQuarantineEnd _ _, _, _, _, h => nomatch h
  | .adqtailWrite _ _, _, _, _, h => nomatch h
  | .hostLaunchCommand _, _, _, _, h => nomatch h
  | .hostReadCounterCommand _, _, _, _, h => nomatch h
  | .hostCancelCommand _, _, _, _, h => nomatch h
  | .hostJoinCommand _, _, _, _, h => nomatch h
  | .hostJoinComplete _ _, _, _, _, h => nomatch h
  | .hostCommandInvalid _, _, _, _, h => nomatch h
  | .doorbellWrite _ _, _, _, _, h => nomatch h
  | .xsendPacketArrival _ _, _, _, _, h => nomatch h
  | .xsendLaunchAccept _ _, _, _, _, h => nomatch h
  | .terminationRound _ _ _, _, _, _, h => nomatch h
  | .jobCancelMessage _ _, _, _, _, h => nomatch h
  | .collectiveMatch _ _ _ _, _, _, _, h => nomatch h
  | .collectiveChunkFinal _ _ _ _ _, _, _, _, h => nomatch h
  | .collectiveComplete _ _ _, _, _, _, h => nomatch h
  | .collectivePatienceExpiry _ _ _, _, _, _, h => nomatch h
  | .collectiveMemberLost _ _ _, _, _, _, h => nomatch h
  | .portEnable _, _, _, _, h => nomatch h
  | .lanesTrained _, _, _, _, h => nomatch h
  | .keyAgreed _ _ _ _, _, _, _, h => nomatch h
  | .peerAttestationFailure _, _, _, _, h => nomatch h
  | .flitReceive _ _, _, _, _, h => nomatch h
  | .flitResend _, _, _, _, h => nomatch h
  | .retryWindowAcknowledged _, _, _, _, h => nomatch h
  | .keyReagreement _, _, _, _, h => nomatch h
  | .persistentLaneFailure _, _, _, _, h => nomatch h
  | .linkFailure _, _, _, _, h => nomatch h
  | .portRetrain _, _, _, _, h => nomatch h
  | .ingressWrite _ _, _, _, _, h => nomatch h
  | .egressLine _ _, _, _, _, h => nomatch h
  | .sramCorrectedError _ _ _, _, _, _, h => nomatch h
  | .sramUncorrectableError _ _ _, _, _, _, h => nomatch h
  | .dramCorrectedError _, _, _, _, h => nomatch h
  | .dramUncorrectableError _, _, _, _, h => nomatch h
  | .partitionChange _, _, _, _, h => nomatch h
  | .attestationReport _ _ _, _, _, _, h => nomatch h
  | .powerOn _, _, _, _, h => nomatch h
  | .railOutOfTolerance _, _, _, _, h => nomatch h
  | .clockReduction _ _, _, _, _, h => nomatch h
  | .clockRaise _ _, _, _, _, h => nomatch h
  | .thermalShutdown _, _, _, _, h => nomatch h
  | .stripStoresPerform _ _, _, _, _, h => nomatch h
  | .groupRegistration _ _ _ _, _, _, _, h => nomatch h
  | .cccfgWrite _ _, _, _, _, h => nomatch h
  | .adqWrite _ _, _, _, _, h => nomatch h

end Sys2Proof.Machine
end

