-- ==== Sys2Proof/Laws/Memory.lean ====
section
/-! SUPPORT. Memory cells: every operation keeps the canonical form, and what each leaves to read. -/

namespace Sys2Proof.Machine

open Sys2Proof

/-- A memory in canonical form from an address on is in that form from any lower address on. -/
theorem Memory.wfFrom_mono {lo hi : Nat} (h : lo ≤ hi) : ∀ {m}, Memory.wfFrom hi m = true → Memory.wfFrom lo m = true
  | [], _ => rfl
  | (k, v) :: m, w => by
    simp only [Memory.wfFrom, Bool.and_eq_true, decide_eq_true_eq] at w ⊢
    exact ⟨⟨by omega, w.1.2⟩, w.2⟩

/-- Below its first address a memory reads as an unlisted byte. -/
theorem Memory.read_below : ∀ {m lo a}, Memory.wfFrom lo m = true → a < lo → Memory.read m a = 0
  | [], _, _, _, _ => rfl
  | (k, v) :: m, lo, a, w, h => by
    simp only [Memory.wfFrom, Bool.and_eq_true, decide_eq_true_eq] at w
    rw [Memory.read, if_neg (by omega), Memory.read_below w.2 (by omega)]

/-- A write keeps the canonical form. -/
theorem Memory.write_wfFrom (b : Byte) : ∀ {m lo a}, Memory.wfFrom lo m = true → lo ≤ a →
    Memory.wfFrom lo (Memory.write m a b) = true
  | [], lo, a, _, h => by
    rw [Memory.write]; split
    · rfl
    · simp only [Memory.wfFrom, Bool.and_true, Bool.and_eq_true, decide_eq_true_eq]
      exact ⟨h, by assumption⟩
  | (k, v) :: m, lo, a, w, h => by
    have w' := w
    simp only [Memory.wfFrom, Bool.and_eq_true, decide_eq_true_eq] at w
    rw [Memory.write]
    split
    · split
      · exact w'
      · simp only [Memory.wfFrom, Bool.and_eq_true, decide_eq_true_eq]
        exact ⟨⟨h, by assumption⟩, ⟨by omega, w.1.2⟩, w.2⟩
    · split
      · subst a
        split
        · exact Memory.wfFrom_mono (by omega) w.2
        · simp only [Memory.wfFrom, Bool.and_eq_true, decide_eq_true_eq]
          exact ⟨⟨h, by assumption⟩, w.2⟩
      · simp only [Memory.wfFrom, Bool.and_eq_true, decide_eq_true_eq]
        exact ⟨w.1, Memory.write_wfFrom b w.2 (by omega)⟩

/-- A write keeps the canonical form of memory. -/
theorem Memory.write_wf {m : List Host.Cell} (a : Nat) (b : Byte) (h : Memory.wf m = true) :
    Memory.wf (Memory.write m a b) = true := Memory.write_wfFrom b h (Nat.zero_le a)

/-- A byte reads as written, and every other byte as before. -/
theorem Memory.read_write_from (b : Byte) (c : Nat) : ∀ {m lo a}, Memory.wfFrom lo m = true →
    Memory.read (Memory.write m a b) c = if c = a then b else Memory.read m c
  | [], lo, a, _ => by
    rw [Memory.write]; split
    · subst b; simp [Memory.read]
    · simp only [Memory.read, eq_comm]
  | (k, v) :: m, lo, a, w => by
    simp only [Memory.wfFrom, Bool.and_eq_true, decide_eq_true_eq] at w
    rw [Memory.write]
    split
    · split
      · subst b; split
        · subst c; rw [Memory.read, if_neg (by omega), Memory.read_below w.2 (by omega)]
        · rfl
      · rw [Memory.read, eq_comm]
        simp only [eq_comm]
    · split
      · subst a
        split
        · subst b
          by_cases hc : c = k
          · subst c; rw [if_pos rfl, Memory.read_below w.2 (by omega)]
          · rw [if_neg hc, Memory.read, if_neg (Ne.symm hc)]
        · by_cases hc : c = k
          · subst c; simp [Memory.read]
          · rw [Memory.read, if_neg (Ne.symm hc), if_neg hc, Memory.read, if_neg (Ne.symm hc)]
      · rw [Memory.read, Memory.read, Memory.read_write_from b c w.2]
        split
        · subst c; rw [if_neg (by omega)]
        · rfl

/-- A byte reads as written, and every other byte as before. -/
theorem Memory.read_write {m : List Host.Cell} (a : Nat) (b : Byte) (c : Nat) (h : Memory.wf m = true) :
    Memory.read (Memory.write m a b) c = if c = a then b else Memory.read m c := Memory.read_write_from b c h

/-- Writing bytes keeps the canonical form. -/
theorem Memory.writeN_wf : ∀ (bs : List Byte) {m} (a : Nat), Memory.wf m = true → Memory.wf (Memory.writeN m a bs) = true
  | [], _, _, h => h
  | b :: bs, _, a, h => Memory.writeN_wf bs (a + 1) (Memory.write_wf a b h)

/-- After bytes are written each reads as written, and every other byte as before. -/
theorem Memory.read_writeN (c : Nat) : ∀ (bs : List Byte) {m} (a : Nat), Memory.wf m = true →
    Memory.read (Memory.writeN m a bs) c = if a ≤ c ∧ c < a + bs.length then bs.getD (c - a) 0 else Memory.read m c
  | [], m, a, _ => by
    rw [if_neg (by rw [List.length_nil]; omega)]; rfl
  | b :: bs, m, a, h => by
    rw [Memory.writeN, Memory.read_writeN c bs (a + 1) (Memory.write_wf a b h), Memory.read_write a b c h]
    simp only [List.length_cons]
    by_cases h1 : a + 1 ≤ c ∧ c < a + 1 + bs.length
    · rw [if_pos h1, if_pos (by omega)]
      have e : c - a = (c - (a + 1)) + 1 := by omega
      rw [e, List.getD_cons_succ]
    · rw [if_neg h1]
      by_cases h2 : c = a
      · subst c; rw [if_pos rfl, if_pos (by omega), Nat.sub_self, List.getD_cons_zero]
      · rw [if_neg h2, if_neg (by omega)]

/-- A byte that no cell lists reads as unlisted. -/
theorem Memory.read_unlisted {a : Nat} : ∀ {m : List Host.Cell}, (∀ c ∈ m, c.1 ≠ a) → Memory.read m a = 0
  | [], _ => rfl
  | (k, _) :: m, h => by
    rw [Memory.read, if_neg (h _ (List.mem_cons_self ..)), Memory.read_unlisted fun c hc => h c (List.mem_cons_of_mem _ hc)]

/-- Bytes copied from another memory: the canonical form stays, and each listed address reads as there. -/
theorem Memory.copy_spec (new : List Host.Cell) (c : Nat) : ∀ (as : List Nat) {m : List Host.Cell}, Memory.wf m = true →
    let r := as.foldl (fun m a => Memory.write m a (Memory.read new a)) m
    Memory.wf r = true ∧ Memory.read r c = if c ∈ as then Memory.read new c else Memory.read m c
  | [], _, h => ⟨h, rfl⟩
  | a :: as, m, h => by
    obtain ⟨w, e⟩ := Memory.copy_spec new c as (Memory.write_wf a (Memory.read new a) h)
    refine ⟨w, e.trans ?_⟩
    rw [Memory.read_write a _ c h]
    by_cases hc : c ∈ as
    · rw [if_pos hc, if_pos (List.mem_cons_of_mem _ hc)]
    · by_cases ha : c = a
      · subst c; rw [if_neg hc, if_pos rfl, if_pos (List.mem_cons_self ..)]
      · rw [if_neg hc, if_neg ha, if_neg (fun x => (List.mem_cons.1 x).elim ha hc)]

/-- Zeroing a range keeps the canonical form from an address on. -/
theorem Memory.zeroRange_wfFrom (lo hi : Nat) : ∀ {m n}, Memory.wfFrom n m = true →
    Memory.wfFrom n (Memory.zeroRange m lo hi) = true
  | [], _, _ => rfl
  | (k, v) :: m, n, w => by
    simp only [Memory.wfFrom, Bool.and_eq_true, decide_eq_true_eq] at w
    have r := Memory.zeroRange_wfFrom lo hi w.2
    rw [Memory.zeroRange, List.filter_cons]
    split
    · simp only [Memory.wfFrom, Bool.and_eq_true, decide_eq_true_eq]
      exact ⟨w.1, r⟩
    · exact Memory.wfFrom_mono (by omega) r

/-- Zeroing a range keeps the canonical form. -/
theorem Memory.zeroRange_wf {m : List Host.Cell} (lo hi : Nat) (h : Memory.wf m = true) :
    Memory.wf (Memory.zeroRange m lo hi) = true := Memory.zeroRange_wfFrom lo hi h

/-- The bytes of a zeroed range read 0, and every other byte as before. -/
theorem Memory.read_zeroRange (m : List Host.Cell) (lo hi a : Nat) :
    Memory.read (Memory.zeroRange m lo hi) a = if lo ≤ a ∧ a < hi then 0 else Memory.read m a := by
  induction m with
  | nil => simp [Memory.zeroRange, Memory.read]
  | cons c m ih =>
    obtain ⟨k, v⟩ := c
    simp only [Memory.zeroRange, List.filter_cons] at ih ⊢
    by_cases hk : k = a
    · subst hk
      by_cases hr : lo ≤ k ∧ k < hi
      · have : ¬(k < lo ∨ hi ≤ k) := by omega
        simp only [Bool.or_eq_true, decide_eq_true_eq, if_neg this, ih, if_pos hr]
      · have : k < lo ∨ hi ≤ k := by omega
        simp only [Bool.or_eq_true, decide_eq_true_eq, if_pos this, if_neg hr, Memory.read, if_true]
    · split
      · simp only [Memory.read, if_neg hk, ih]
      · simp only [ih, Memory.read, if_neg hk]

/-- Memory right after power-on is in canonical form. -/
theorem Memory.wf_reset : Memory.wf State.reset.mem = true := rfl

/-- A write of a byte of DRAM or of the scratchpad keeps the canonical form of both. -/
theorem rawWrite_wf (s : State) (loc : Nat) (b : Byte) (h : Memory.wf s.mem = true) (hc : Memory.wf s.u.csp = true) :
    Memory.wf (rawWrite s loc b).mem = true ∧ Memory.wf (rawWrite s loc b).u.csp = true := by
  unfold rawWrite; split
  · exact ⟨Memory.write_wf _ _ h, hc⟩
  · exact ⟨h, Memory.write_wf _ _ hc⟩

/-- A location reads as written, and every other as before: DRAM and the scratchpad do not meet (R207). -/
theorem rawByte_rawWrite (s : State) (loc a : Nat) (b : Byte) (h : Memory.wf s.mem = true)
    (hc : Memory.wf s.u.csp = true) : rawByte (rawWrite s loc b) a = if a = loc then b else rawByte s a := by
  unfold rawWrite rawByte isDram
  by_cases hl : loc < cspBase <;> by_cases ha : a < cspBase <;>
    simp only [hl, ha, decide_true, decide_false, if_true, Bool.false_eq_true, if_false]
  · rw [Memory.read_write _ _ _ h]
  · rw [if_neg (by omega)]
  · rw [if_neg (by omega)]
  · rw [Memory.read_write _ _ _ hc]
    by_cases e : a = loc
    · rw [if_pos e, if_pos (by omega)]
    · rw [if_neg e, if_neg (by omega)]

end Sys2Proof.Machine
end

