-- ==== Sys2Proof/Laws/PerInstr.lean ====
section
/-! SUPPORT. The family of statements made for every instruction: its long opcode has a row of operand checks (R39). -/

/-- An instruction that has a long opcode has the row of that opcode, which `checkForm` reads; an opcode is 8 bits. -/
def Sys2Proof.Laws.Row.Statement (i : Sys2Proof.Instr) : Prop :=
  ∀ opc f, Sys2Proof.Machine.longOf i = some (opc, f) → opc < 256 ∧ (Sys2Proof.Machine.opRow? opc).isSome = true

open Sys2Proof

theorem Sys2Proof.Laws.Row.udf (x : BitVec 23) :
    Sys2Proof.Laws.Row.Statement (.udf x) := by rintro _ _ ⟨⟩; exact ⟨by decide, by decide⟩
theorem Sys2Proof.Laws.Row.add (f : Form) :
    Sys2Proof.Laws.Row.Statement (.add f) := by rintro _ _ ⟨⟩; exact ⟨by decide, by decide⟩
theorem Sys2Proof.Laws.Row.sub (f : Form) :
    Sys2Proof.Laws.Row.Statement (.sub f) := by rintro _ _ ⟨⟩; exact ⟨by decide, by decide⟩
theorem Sys2Proof.Laws.Row.and (f : Form) :
    Sys2Proof.Laws.Row.Statement (.and f) := by rintro _ _ ⟨⟩; exact ⟨by decide, by decide⟩
theorem Sys2Proof.Laws.Row.or (f : Form) :
    Sys2Proof.Laws.Row.Statement (.or f) := by rintro _ _ ⟨⟩; exact ⟨by decide, by decide⟩
theorem Sys2Proof.Laws.Row.xor (f : Form) :
    Sys2Proof.Laws.Row.Statement (.xor f) := by rintro _ _ ⟨⟩; exact ⟨by decide, by decide⟩
theorem Sys2Proof.Laws.Row.shl (f : Form) :
    Sys2Proof.Laws.Row.Statement (.shl f) := by rintro _ _ ⟨⟩; exact ⟨by decide, by decide⟩
theorem Sys2Proof.Laws.Row.shr (f : Form) :
    Sys2Proof.Laws.Row.Statement (.shr f) := by rintro _ _ ⟨⟩; exact ⟨by decide, by decide⟩
theorem Sys2Proof.Laws.Row.sra (f : Form) :
    Sys2Proof.Laws.Row.Statement (.sra f) := by rintro _ _ ⟨⟩; exact ⟨by decide, by decide⟩
theorem Sys2Proof.Laws.Row.mul (f : Form) :
    Sys2Proof.Laws.Row.Statement (.mul f) := by rintro _ _ ⟨⟩; exact ⟨by decide, by decide⟩
theorem Sys2Proof.Laws.Row.mulh (f : Form) :
    Sys2Proof.Laws.Row.Statement (.mulh f) := by rintro _ _ ⟨⟩; exact ⟨by decide, by decide⟩
theorem Sys2Proof.Laws.Row.mulhu (f : Form) :
    Sys2Proof.Laws.Row.Statement (.mulhu f) := by rintro _ _ ⟨⟩; exact ⟨by decide, by decide⟩
theorem Sys2Proof.Laws.Row.div (f : Form) :
    Sys2Proof.Laws.Row.Statement (.div f) := by rintro _ _ ⟨⟩; exact ⟨by decide, by decide⟩
theorem Sys2Proof.Laws.Row.divu (f : Form) :
    Sys2Proof.Laws.Row.Statement (.divu f) := by rintro _ _ ⟨⟩; exact ⟨by decide, by decide⟩
theorem Sys2Proof.Laws.Row.rem (f : Form) :
    Sys2Proof.Laws.Row.Statement (.rem f) := by rintro _ _ ⟨⟩; exact ⟨by decide, by decide⟩
theorem Sys2Proof.Laws.Row.remu (f : Form) :
    Sys2Proof.Laws.Row.Statement (.remu f) := by rintro _ _ ⟨⟩; exact ⟨by decide, by decide⟩
theorem Sys2Proof.Laws.Row.slt (f : Form) :
    Sys2Proof.Laws.Row.Statement (.slt f) := by rintro _ _ ⟨⟩; exact ⟨by decide, by decide⟩
theorem Sys2Proof.Laws.Row.sltu (f : Form) :
    Sys2Proof.Laws.Row.Statement (.sltu f) := by rintro _ _ ⟨⟩; exact ⟨by decide, by decide⟩
theorem Sys2Proof.Laws.Row.min (f : Form) :
    Sys2Proof.Laws.Row.Statement (.min f) := by rintro _ _ ⟨⟩; exact ⟨by decide, by decide⟩
theorem Sys2Proof.Laws.Row.max (f : Form) :
    Sys2Proof.Laws.Row.Statement (.max f) := by rintro _ _ ⟨⟩; exact ⟨by decide, by decide⟩
theorem Sys2Proof.Laws.Row.minu (f : Form) :
    Sys2Proof.Laws.Row.Statement (.minu f) := by rintro _ _ ⟨⟩; exact ⟨by decide, by decide⟩
theorem Sys2Proof.Laws.Row.maxu (f : Form) :
    Sys2Proof.Laws.Row.Statement (.maxu f) := by rintro _ _ ⟨⟩; exact ⟨by decide, by decide⟩
theorem Sys2Proof.Laws.Row.clz (f : Form) :
    Sys2Proof.Laws.Row.Statement (.clz f) := by rintro _ _ ⟨⟩; exact ⟨by decide, by decide⟩
theorem Sys2Proof.Laws.Row.ctz (f : Form) :
    Sys2Proof.Laws.Row.Statement (.ctz f) := by rintro _ _ ⟨⟩; exact ⟨by decide, by decide⟩
theorem Sys2Proof.Laws.Row.popc (f : Form) :
    Sys2Proof.Laws.Row.Statement (.popc f) := by rintro _ _ ⟨⟩; exact ⟨by decide, by decide⟩
theorem Sys2Proof.Laws.Row.brev (f : Form) :
    Sys2Proof.Laws.Row.Statement (.brev f) := by rintro _ _ ⟨⟩; exact ⟨by decide, by decide⟩
theorem Sys2Proof.Laws.Row.sel (f : Form) :
    Sys2Proof.Laws.Row.Statement (.sel f) := by rintro _ _ ⟨⟩; exact ⟨by decide, by decide⟩
theorem Sys2Proof.Laws.Row.fadd (f : Form) :
    Sys2Proof.Laws.Row.Statement (.fadd f) := by rintro _ _ ⟨⟩; exact ⟨by decide, by decide⟩
theorem Sys2Proof.Laws.Row.fsub (f : Form) :
    Sys2Proof.Laws.Row.Statement (.fsub f) := by rintro _ _ ⟨⟩; exact ⟨by decide, by decide⟩
theorem Sys2Proof.Laws.Row.fmul (f : Form) :
    Sys2Proof.Laws.Row.Statement (.fmul f) := by rintro _ _ ⟨⟩; exact ⟨by decide, by decide⟩
theorem Sys2Proof.Laws.Row.fma (f : Form) :
    Sys2Proof.Laws.Row.Statement (.fma f) := by rintro _ _ ⟨⟩; exact ⟨by decide, by decide⟩
theorem Sys2Proof.Laws.Row.fdiv (f : Form) :
    Sys2Proof.Laws.Row.Statement (.fdiv f) := by rintro _ _ ⟨⟩; exact ⟨by decide, by decide⟩
theorem Sys2Proof.Laws.Row.fsqrt (f : Form) :
    Sys2Proof.Laws.Row.Statement (.fsqrt f) := by rintro _ _ ⟨⟩; exact ⟨by decide, by decide⟩
theorem Sys2Proof.Laws.Row.fmin (f : Form) :
    Sys2Proof.Laws.Row.Statement (.fmin f) := by rintro _ _ ⟨⟩; exact ⟨by decide, by decide⟩
theorem Sys2Proof.Laws.Row.fmax (f : Form) :
    Sys2Proof.Laws.Row.Statement (.fmax f) := by rintro _ _ ⟨⟩; exact ⟨by decide, by decide⟩
theorem Sys2Proof.Laws.Row.fcmp (f : Form) :
    Sys2Proof.Laws.Row.Statement (.fcmp f) := by rintro _ _ ⟨⟩; exact ⟨by decide, by decide⟩
theorem Sys2Proof.Laws.Row.fcvt (f : Form) :
    Sys2Proof.Laws.Row.Statement (.fcvt f) := by rintro _ _ ⟨⟩; exact ⟨by decide, by decide⟩
theorem Sys2Proof.Laws.Row.ficvt (f : Form) :
    Sys2Proof.Laws.Row.Statement (.ficvt f) := by rintro _ _ ⟨⟩; exact ⟨by decide, by decide⟩
theorem Sys2Proof.Laws.Row.ifcvt (f : Form) :
    Sys2Proof.Laws.Row.Statement (.ifcvt f) := by rintro _ _ ⟨⟩; exact ⟨by decide, by decide⟩
theorem Sys2Proof.Laws.Row.addi (f : Form) :
    Sys2Proof.Laws.Row.Statement (.addi f) := by rintro _ _ ⟨⟩; exact ⟨by decide, by decide⟩
theorem Sys2Proof.Laws.Row.andi (f : Form) :
    Sys2Proof.Laws.Row.Statement (.andi f) := by rintro _ _ ⟨⟩; exact ⟨by decide, by decide⟩
theorem Sys2Proof.Laws.Row.ori (f : Form) :
    Sys2Proof.Laws.Row.Statement (.ori f) := by rintro _ _ ⟨⟩; exact ⟨by decide, by decide⟩
theorem Sys2Proof.Laws.Row.xori (f : Form) :
    Sys2Proof.Laws.Row.Statement (.xori f) := by rintro _ _ ⟨⟩; exact ⟨by decide, by decide⟩
theorem Sys2Proof.Laws.Row.shli (f : Form) :
    Sys2Proof.Laws.Row.Statement (.shli f) := by rintro _ _ ⟨⟩; exact ⟨by decide, by decide⟩
theorem Sys2Proof.Laws.Row.shri (f : Form) :
    Sys2Proof.Laws.Row.Statement (.shri f) := by rintro _ _ ⟨⟩; exact ⟨by decide, by decide⟩
theorem Sys2Proof.Laws.Row.srai (f : Form) :
    Sys2Proof.Laws.Row.Statement (.srai f) := by rintro _ _ ⟨⟩; exact ⟨by decide, by decide⟩
theorem Sys2Proof.Laws.Row.slti (f : Form) :
    Sys2Proof.Laws.Row.Statement (.slti f) := by rintro _ _ ⟨⟩; exact ⟨by decide, by decide⟩
theorem Sys2Proof.Laws.Row.sltiu (f : Form) :
    Sys2Proof.Laws.Row.Statement (.sltiu f) := by rintro _ _ ⟨⟩; exact ⟨by decide, by decide⟩
theorem Sys2Proof.Laws.Row.muli (f : Form) :
    Sys2Proof.Laws.Row.Statement (.muli f) := by rintro _ _ ⟨⟩; exact ⟨by decide, by decide⟩
theorem Sys2Proof.Laws.Row.setvli (f : Form) :
    Sys2Proof.Laws.Row.Statement (.setvli f) := by rintro _ _ ⟨⟩; exact ⟨by decide, by decide⟩
theorem Sys2Proof.Laws.Row.ldhi (f : Form) :
    Sys2Proof.Laws.Row.Statement (.ldhi f) := by rintro _ _ ⟨⟩; exact ⟨by decide, by decide⟩
theorem Sys2Proof.Laws.Row.addpc (f : Form) :
    Sys2Proof.Laws.Row.Statement (.addpc f) := by rintro _ _ ⟨⟩; exact ⟨by decide, by decide⟩
theorem Sys2Proof.Laws.Row.jalr (f : Form) :
    Sys2Proof.Laws.Row.Statement (.jalr f) := by rintro _ _ ⟨⟩; exact ⟨by decide, by decide⟩
theorem Sys2Proof.Laws.Row.jal (f : Form) :
    Sys2Proof.Laws.Row.Statement (.jal f) := by rintro _ _ ⟨⟩; exact ⟨by decide, by decide⟩
theorem Sys2Proof.Laws.Row.beq (f : Form) :
    Sys2Proof.Laws.Row.Statement (.beq f) := by rintro _ _ ⟨⟩; exact ⟨by decide, by decide⟩
theorem Sys2Proof.Laws.Row.bne (f : Form) :
    Sys2Proof.Laws.Row.Statement (.bne f) := by rintro _ _ ⟨⟩; exact ⟨by decide, by decide⟩
theorem Sys2Proof.Laws.Row.blt (f : Form) :
    Sys2Proof.Laws.Row.Statement (.blt f) := by rintro _ _ ⟨⟩; exact ⟨by decide, by decide⟩
theorem Sys2Proof.Laws.Row.bge (f : Form) :
    Sys2Proof.Laws.Row.Statement (.bge f) := by rintro _ _ ⟨⟩; exact ⟨by decide, by decide⟩
theorem Sys2Proof.Laws.Row.bltu (f : Form) :
    Sys2Proof.Laws.Row.Statement (.bltu f) := by rintro _ _ ⟨⟩; exact ⟨by decide, by decide⟩
theorem Sys2Proof.Laws.Row.bgeu (f : Form) :
    Sys2Proof.Laws.Row.Statement (.bgeu f) := by rintro _ _ ⟨⟩; exact ⟨by decide, by decide⟩
theorem Sys2Proof.Laws.Row.bp (f : Form) :
    Sys2Proof.Laws.Row.Statement (.bp f) := by rintro _ _ ⟨⟩; exact ⟨by decide, by decide⟩
theorem Sys2Proof.Laws.Row.setvl (f : Form) :
    Sys2Proof.Laws.Row.Statement (.setvl f) := by rintro _ _ ⟨⟩; exact ⟨by decide, by decide⟩
theorem Sys2Proof.Laws.Row.vcfg (f : Form) :
    Sys2Proof.Laws.Row.Statement (.vcfg f) := by rintro _ _ ⟨⟩; exact ⟨by decide, by decide⟩
theorem Sys2Proof.Laws.Row.vsetty (f : Form) :
    Sys2Proof.Laws.Row.Statement (.vsetty f) := by rintro _ _ ⟨⟩; exact ⟨by decide, by decide⟩
theorem Sys2Proof.Laws.Row.vadd (f : Form) :
    Sys2Proof.Laws.Row.Statement (.vadd f) := by rintro _ _ ⟨⟩; exact ⟨by decide, by decide⟩
theorem Sys2Proof.Laws.Row.vsub (f : Form) :
    Sys2Proof.Laws.Row.Statement (.vsub f) := by rintro _ _ ⟨⟩; exact ⟨by decide, by decide⟩
theorem Sys2Proof.Laws.Row.vmul (f : Form) :
    Sys2Proof.Laws.Row.Statement (.vmul f) := by rintro _ _ ⟨⟩; exact ⟨by decide, by decide⟩
theorem Sys2Proof.Laws.Row.vfma (f : Form) :
    Sys2Proof.Laws.Row.Statement (.vfma f) := by rintro _ _ ⟨⟩; exact ⟨by decide, by decide⟩
theorem Sys2Proof.Laws.Row.vfms (f : Form) :
    Sys2Proof.Laws.Row.Statement (.vfms f) := by rintro _ _ ⟨⟩; exact ⟨by decide, by decide⟩
theorem Sys2Proof.Laws.Row.vdiv (f : Form) :
    Sys2Proof.Laws.Row.Statement (.vdiv f) := by rintro _ _ ⟨⟩; exact ⟨by decide, by decide⟩
theorem Sys2Proof.Laws.Row.vsqrt (f : Form) :
    Sys2Proof.Laws.Row.Statement (.vsqrt f) := by rintro _ _ ⟨⟩; exact ⟨by decide, by decide⟩
theorem Sys2Proof.Laws.Row.vmin (f : Form) :
    Sys2Proof.Laws.Row.Statement (.vmin f) := by rintro _ _ ⟨⟩; exact ⟨by decide, by decide⟩
theorem Sys2Proof.Laws.Row.vmax (f : Form) :
    Sys2Proof.Laws.Row.Statement (.vmax f) := by rintro _ _ ⟨⟩; exact ⟨by decide, by decide⟩
theorem Sys2Proof.Laws.Row.vabs (f : Form) :
    Sys2Proof.Laws.Row.Statement (.vabs f) := by rintro _ _ ⟨⟩; exact ⟨by decide, by decide⟩
theorem Sys2Proof.Laws.Row.vneg (f : Form) :
    Sys2Proof.Laws.Row.Statement (.vneg f) := by rintro _ _ ⟨⟩; exact ⟨by decide, by decide⟩
theorem Sys2Proof.Laws.Row.vand (f : Form) :
    Sys2Proof.Laws.Row.Statement (.vand f) := by rintro _ _ ⟨⟩; exact ⟨by decide, by decide⟩
theorem Sys2Proof.Laws.Row.vor (f : Form) :
    Sys2Proof.Laws.Row.Statement (.vor f) := by rintro _ _ ⟨⟩; exact ⟨by decide, by decide⟩
theorem Sys2Proof.Laws.Row.vxor (f : Form) :
    Sys2Proof.Laws.Row.Statement (.vxor f) := by rintro _ _ ⟨⟩; exact ⟨by decide, by decide⟩
theorem Sys2Proof.Laws.Row.vshl (f : Form) :
    Sys2Proof.Laws.Row.Statement (.vshl f) := by rintro _ _ ⟨⟩; exact ⟨by decide, by decide⟩
theorem Sys2Proof.Laws.Row.vshr (f : Form) :
    Sys2Proof.Laws.Row.Statement (.vshr f) := by rintro _ _ ⟨⟩; exact ⟨by decide, by decide⟩
theorem Sys2Proof.Laws.Row.vsra (f : Form) :
    Sys2Proof.Laws.Row.Statement (.vsra f) := by rintro _ _ ⟨⟩; exact ⟨by decide, by decide⟩
theorem Sys2Proof.Laws.Row.vcmp (f : Form) :
    Sys2Proof.Laws.Row.Statement (.vcmp f) := by rintro _ _ ⟨⟩; exact ⟨by decide, by decide⟩
theorem Sys2Proof.Laws.Row.vsel (f : Form) :
    Sys2Proof.Laws.Row.Statement (.vsel f) := by rintro _ _ ⟨⟩; exact ⟨by decide, by decide⟩
theorem Sys2Proof.Laws.Row.vcvt (f : Form) :
    Sys2Proof.Laws.Row.Statement (.vcvt f) := by rintro _ _ ⟨⟩; exact ⟨by decide, by decide⟩
theorem Sys2Proof.Laws.Row.vwid (f : Form) :
    Sys2Proof.Laws.Row.Statement (.vwid f) := by rintro _ _ ⟨⟩; exact ⟨by decide, by decide⟩
theorem Sys2Proof.Laws.Row.vnar (f : Form) :
    Sys2Proof.Laws.Row.Statement (.vnar f) := by rintro _ _ ⟨⟩; exact ⟨by decide, by decide⟩
theorem Sys2Proof.Laws.Row.vsplat (f : Form) :
    Sys2Proof.Laws.Row.Statement (.vsplat f) := by rintro _ _ ⟨⟩; exact ⟨by decide, by decide⟩
theorem Sys2Proof.Laws.Row.vidx (f : Form) :
    Sys2Proof.Laws.Row.Statement (.vidx f) := by rintro _ _ ⟨⟩; exact ⟨by decide, by decide⟩
theorem Sys2Proof.Laws.Row.vext (f : Form) :
    Sys2Proof.Laws.Row.Statement (.vext f) := by rintro _ _ ⟨⟩; exact ⟨by decide, by decide⟩
theorem Sys2Proof.Laws.Row.vins (f : Form) :
    Sys2Proof.Laws.Row.Statement (.vins f) := by rintro _ _ ⟨⟩; exact ⟨by decide, by decide⟩
theorem Sys2Proof.Laws.Row.vslide (f : Form) :
    Sys2Proof.Laws.Row.Statement (.vslide f) := by rintro _ _ ⟨⟩; exact ⟨by decide, by decide⟩
theorem Sys2Proof.Laws.Row.vperm (f : Form) :
    Sys2Proof.Laws.Row.Statement (.vperm f) := by rintro _ _ ⟨⟩; exact ⟨by decide, by decide⟩
theorem Sys2Proof.Laws.Row.vshape (f : Form) :
    Sys2Proof.Laws.Row.Statement (.vshape f) := by rintro _ _ ⟨⟩; exact ⟨by decide, by decide⟩
theorem Sys2Proof.Laws.Row.vcompress (f : Form) :
    Sys2Proof.Laws.Row.Statement (.vcompress f) := by rintro _ _ ⟨⟩; exact ⟨by decide, by decide⟩
theorem Sys2Proof.Laws.Row.vexpand (f : Form) :
    Sys2Proof.Laws.Row.Statement (.vexpand f) := by rintro _ _ ⟨⟩; exact ⟨by decide, by decide⟩
theorem Sys2Proof.Laws.Row.vredsum (f : Form) :
    Sys2Proof.Laws.Row.Statement (.vredsum f) := by rintro _ _ ⟨⟩; exact ⟨by decide, by decide⟩
theorem Sys2Proof.Laws.Row.vredtsum (f : Form) :
    Sys2Proof.Laws.Row.Statement (.vredtsum f) := by rintro _ _ ⟨⟩; exact ⟨by decide, by decide⟩
theorem Sys2Proof.Laws.Row.vredmax (f : Form) :
    Sys2Proof.Laws.Row.Statement (.vredmax f) := by rintro _ _ ⟨⟩; exact ⟨by decide, by decide⟩
theorem Sys2Proof.Laws.Row.vredmin (f : Form) :
    Sys2Proof.Laws.Row.Statement (.vredmin f) := by rintro _ _ ⟨⟩; exact ⟨by decide, by decide⟩
theorem Sys2Proof.Laws.Row.vscan (f : Form) :
    Sys2Proof.Laws.Row.Statement (.vscan f) := by rintro _ _ ⟨⟩; exact ⟨by decide, by decide⟩
theorem Sys2Proof.Laws.Row.vexpf (f : Form) :
    Sys2Proof.Laws.Row.Statement (.vexpf f) := by rintro _ _ ⟨⟩; exact ⟨by decide, by decide⟩
theorem Sys2Proof.Laws.Row.vexpx (f : Form) :
    Sys2Proof.Laws.Row.Statement (.vexpx f) := by rintro _ _ ⟨⟩; exact ⟨by decide, by decide⟩
theorem Sys2Proof.Laws.Row.vlogf (f : Form) :
    Sys2Proof.Laws.Row.Statement (.vlogf f) := by rintro _ _ ⟨⟩; exact ⟨by decide, by decide⟩
theorem Sys2Proof.Laws.Row.vlogx (f : Form) :
    Sys2Proof.Laws.Row.Statement (.vlogx f) := by rintro _ _ ⟨⟩; exact ⟨by decide, by decide⟩
theorem Sys2Proof.Laws.Row.vrcpf (f : Form) :
    Sys2Proof.Laws.Row.Statement (.vrcpf f) := by rintro _ _ ⟨⟩; exact ⟨by decide, by decide⟩
theorem Sys2Proof.Laws.Row.vrcpx (f : Form) :
    Sys2Proof.Laws.Row.Statement (.vrcpx f) := by rintro _ _ ⟨⟩; exact ⟨by decide, by decide⟩
theorem Sys2Proof.Laws.Row.vrsqf (f : Form) :
    Sys2Proof.Laws.Row.Statement (.vrsqf f) := by rintro _ _ ⟨⟩; exact ⟨by decide, by decide⟩
theorem Sys2Proof.Laws.Row.vrsqx (f : Form) :
    Sys2Proof.Laws.Row.Statement (.vrsqx f) := by rintro _ _ ⟨⟩; exact ⟨by decide, by decide⟩
theorem Sys2Proof.Laws.Row.vsinf (f : Form) :
    Sys2Proof.Laws.Row.Statement (.vsinf f) := by rintro _ _ ⟨⟩; exact ⟨by decide, by decide⟩
theorem Sys2Proof.Laws.Row.vsinx (f : Form) :
    Sys2Proof.Laws.Row.Statement (.vsinx f) := by rintro _ _ ⟨⟩; exact ⟨by decide, by decide⟩
theorem Sys2Proof.Laws.Row.vtanhf (f : Form) :
    Sys2Proof.Laws.Row.Statement (.vtanhf f) := by rintro _ _ ⟨⟩; exact ⟨by decide, by decide⟩
theorem Sys2Proof.Laws.Row.vtanhx (f : Form) :
    Sys2Proof.Laws.Row.Statement (.vtanhx f) := by rintro _ _ ⟨⟩; exact ⟨by decide, by decide⟩
theorem Sys2Proof.Laws.Row.pand (f : Form) :
    Sys2Proof.Laws.Row.Statement (.pand f) := by rintro _ _ ⟨⟩; exact ⟨by decide, by decide⟩
theorem Sys2Proof.Laws.Row.por (f : Form) :
    Sys2Proof.Laws.Row.Statement (.por f) := by rintro _ _ ⟨⟩; exact ⟨by decide, by decide⟩
theorem Sys2Proof.Laws.Row.pxor (f : Form) :
    Sys2Proof.Laws.Row.Statement (.pxor f) := by rintro _ _ ⟨⟩; exact ⟨by decide, by decide⟩
theorem Sys2Proof.Laws.Row.pandn (f : Form) :
    Sys2Proof.Laws.Row.Statement (.pandn f) := by rintro _ _ ⟨⟩; exact ⟨by decide, by decide⟩
theorem Sys2Proof.Laws.Row.ppopc (f : Form) :
    Sys2Proof.Laws.Row.Statement (.ppopc f) := by rintro _ _ ⟨⟩; exact ⟨by decide, by decide⟩
theorem Sys2Proof.Laws.Row.pfirst (f : Form) :
    Sys2Proof.Laws.Row.Statement (.pfirst f) := by rintro _ _ ⟨⟩; exact ⟨by decide, by decide⟩
theorem Sys2Proof.Laws.Row.pbrk (f : Form) :
    Sys2Proof.Laws.Row.Statement (.pbrk f) := by rintro _ _ ⟨⟩; exact ⟨by decide, by decide⟩
theorem Sys2Proof.Laws.Row.pfromx (f : Form) :
    Sys2Proof.Laws.Row.Statement (.pfromx f) := by rintro _ _ ⟨⟩; exact ⟨by decide, by decide⟩
theorem Sys2Proof.Laws.Row.vpfetch (f : Form) :
    Sys2Proof.Laws.Row.Statement (.vpfetch f) := by rintro _ _ ⟨⟩; exact ⟨by decide, by decide⟩
theorem Sys2Proof.Laws.Row.vpjoin (f : Form) :
    Sys2Proof.Laws.Row.Statement (.vpjoin f) := by rintro _ _ ⟨⟩; exact ⟨by decide, by decide⟩
theorem Sys2Proof.Laws.Row.vdot (f : Form) :
    Sys2Proof.Laws.Row.Statement (.vdot f) := by rintro _ _ ⟨⟩; exact ⟨by decide, by decide⟩
theorem Sys2Proof.Laws.Row.fnset (f : Form) :
    Sys2Proof.Laws.Row.Statement (.fnset f) := by rintro _ _ ⟨⟩; exact ⟨by decide, by decide⟩
theorem Sys2Proof.Laws.Row.fnld (f : Form) :
    Sys2Proof.Laws.Row.Statement (.fnld f) := by rintro _ _ ⟨⟩; exact ⟨by decide, by decide⟩
theorem Sys2Proof.Laws.Row.fnst (f : Form) :
    Sys2Proof.Laws.Row.Statement (.fnst f) := by rintro _ _ ⟨⟩; exact ⟨by decide, by decide⟩
theorem Sys2Proof.Laws.Row.fnmov (f : Form) :
    Sys2Proof.Laws.Row.Statement (.fnmov f) := by rintro _ _ ⟨⟩; exact ⟨by decide, by decide⟩
theorem Sys2Proof.Laws.Row.fnadd (f : Form) :
    Sys2Proof.Laws.Row.Statement (.fnadd f) := by rintro _ _ ⟨⟩; exact ⟨by decide, by decide⟩
theorem Sys2Proof.Laws.Row.fnsub (f : Form) :
    Sys2Proof.Laws.Row.Statement (.fnsub f) := by rintro _ _ ⟨⟩; exact ⟨by decide, by decide⟩
theorem Sys2Proof.Laws.Row.fnmul (f : Form) :
    Sys2Proof.Laws.Row.Statement (.fnmul f) := by rintro _ _ ⟨⟩; exact ⟨by decide, by decide⟩
theorem Sys2Proof.Laws.Row.fnscl (f : Form) :
    Sys2Proof.Laws.Row.Statement (.fnscl f) := by rintro _ _ ⟨⟩; exact ⟨by decide, by decide⟩
theorem Sys2Proof.Laws.Row.fnaxpy (f : Form) :
    Sys2Proof.Laws.Row.Statement (.fnaxpy f) := by rintro _ _ ⟨⟩; exact ⟨by decide, by decide⟩
theorem Sys2Proof.Laws.Row.fndiff (f : Form) :
    Sys2Proof.Laws.Row.Statement (.fndiff f) := by rintro _ _ ⟨⟩; exact ⟨by decide, by decide⟩
theorem Sys2Proof.Laws.Row.fnint (f : Form) :
    Sys2Proof.Laws.Row.Statement (.fnint f) := by rintro _ _ ⟨⟩; exact ⟨by decide, by decide⟩
theorem Sys2Proof.Laws.Row.fnquad (f : Form) :
    Sys2Proof.Laws.Row.Statement (.fnquad f) := by rintro _ _ ⟨⟩; exact ⟨by decide, by decide⟩
theorem Sys2Proof.Laws.Row.fnproj (f : Form) :
    Sys2Proof.Laws.Row.Statement (.fnproj f) := by rintro _ _ ⟨⟩; exact ⟨by decide, by decide⟩
theorem Sys2Proof.Laws.Row.fnbasis (f : Form) :
    Sys2Proof.Laws.Row.Statement (.fnbasis f) := by rintro _ _ ⟨⟩; exact ⟨by decide, by decide⟩
theorem Sys2Proof.Laws.Row.fntrace (f : Form) :
    Sys2Proof.Laws.Row.Statement (.fntrace f) := by rintro _ _ ⟨⟩; exact ⟨by decide, by decide⟩
theorem Sys2Proof.Laws.Row.fneval (f : Form) :
    Sys2Proof.Laws.Row.Statement (.fneval f) := by rintro _ _ ⟨⟩; exact ⟨by decide, by decide⟩
theorem Sys2Proof.Laws.Row.fnlift (f : Form) :
    Sys2Proof.Laws.Row.Statement (.fnlift f) := by rintro _ _ ⟨⟩; exact ⟨by decide, by decide⟩
theorem Sys2Proof.Laws.Row.fndeg (f : Form) :
    Sys2Proof.Laws.Row.Statement (.fndeg f) := by rintro _ _ ⟨⟩; exact ⟨by decide, by decide⟩
theorem Sys2Proof.Laws.Row.fnnorm (f : Form) :
    Sys2Proof.Laws.Row.Statement (.fnnorm f) := by rintro _ _ ⟨⟩; exact ⟨by decide, by decide⟩
theorem Sys2Proof.Laws.Row.stl (f : Form) :
    Sys2Proof.Laws.Row.Statement (.stl f) := by rintro _ _ ⟨⟩; exact ⟨by decide, by decide⟩
theorem Sys2Proof.Laws.Row.tcfg (f : Form) :
    Sys2Proof.Laws.Row.Statement (.tcfg f) := by rintro _ _ ⟨⟩; exact ⟨by decide, by decide⟩
theorem Sys2Proof.Laws.Row.tzero (f : Form) :
    Sys2Proof.Laws.Row.Statement (.tzero f) := by rintro _ _ ⟨⟩; exact ⟨by decide, by decide⟩
theorem Sys2Proof.Laws.Row.tld (f : Form) :
    Sys2Proof.Laws.Row.Statement (.tld f) := by rintro _ _ ⟨⟩; exact ⟨by decide, by decide⟩
theorem Sys2Proof.Laws.Row.tldf (f : Form) :
    Sys2Proof.Laws.Row.Statement (.tldf f) := by rintro _ _ ⟨⟩; exact ⟨by decide, by decide⟩
theorem Sys2Proof.Laws.Row.tst (f : Form) :
    Sys2Proof.Laws.Row.Statement (.tst f) := by rintro _ _ ⟨⟩; exact ⟨by decide, by decide⟩
theorem Sys2Proof.Laws.Row.tstf (f : Form) :
    Sys2Proof.Laws.Row.Statement (.tstf f) := by rintro _ _ ⟨⟩; exact ⟨by decide, by decide⟩
theorem Sys2Proof.Laws.Row.tmm (f : Form) :
    Sys2Proof.Laws.Row.Statement (.tmm f) := by rintro _ _ ⟨⟩; exact ⟨by decide, by decide⟩
theorem Sys2Proof.Laws.Row.tlmm (f : Form) :
    Sys2Proof.Laws.Row.Statement (.tlmm f) := by rintro _ _ ⟨⟩; exact ⟨by decide, by decide⟩
theorem Sys2Proof.Laws.Row.tadd (f : Form) :
    Sys2Proof.Laws.Row.Statement (.tadd f) := by rintro _ _ ⟨⟩; exact ⟨by decide, by decide⟩
theorem Sys2Proof.Laws.Row.trecomp (f : Form) :
    Sys2Proof.Laws.Row.Statement (.trecomp f) := by rintro _ _ ⟨⟩; exact ⟨by decide, by decide⟩
theorem Sys2Proof.Laws.Row.tdense (f : Form) :
    Sys2Proof.Laws.Row.Statement (.tdense f) := by rintro _ _ ⟨⟩; exact ⟨by decide, by decide⟩
theorem Sys2Proof.Laws.Row.tcomp (f : Form) :
    Sys2Proof.Laws.Row.Statement (.tcomp f) := by rintro _ _ ⟨⟩; exact ⟨by decide, by decide⟩
theorem Sys2Proof.Laws.Row.tscale (f : Form) :
    Sys2Proof.Laws.Row.Statement (.tscale f) := by rintro _ _ ⟨⟩; exact ⟨by decide, by decide⟩
theorem Sys2Proof.Laws.Row.tcvt (f : Form) :
    Sys2Proof.Laws.Row.Statement (.tcvt f) := by rintro _ _ ⟨⟩; exact ⟨by decide, by decide⟩
theorem Sys2Proof.Laws.Row.trank (f : Form) :
    Sys2Proof.Laws.Row.Statement (.trank f) := by rintro _ _ ⟨⟩; exact ⟨by decide, by decide⟩
theorem Sys2Proof.Laws.Row.tsync (f : Form) :
    Sys2Proof.Laws.Row.Statement (.tsync f) := by rintro _ _ ⟨⟩; exact ⟨by decide, by decide⟩
theorem Sys2Proof.Laws.Row.ld (f : Form) :
    Sys2Proof.Laws.Row.Statement (.ld f) := by rintro _ _ ⟨⟩; exact ⟨by decide, by decide⟩
theorem Sys2Proof.Laws.Row.st (f : Form) :
    Sys2Proof.Laws.Row.Statement (.st f) := by rintro _ _ ⟨⟩; exact ⟨by decide, by decide⟩
theorem Sys2Proof.Laws.Row.vld (f : Form) :
    Sys2Proof.Laws.Row.Statement (.vld f) := by rintro _ _ ⟨⟩; exact ⟨by decide, by decide⟩
theorem Sys2Proof.Laws.Row.vst (f : Form) :
    Sys2Proof.Laws.Row.Statement (.vst f) := by rintro _ _ ⟨⟩; exact ⟨by decide, by decide⟩
theorem Sys2Proof.Laws.Row.vldff (f : Form) :
    Sys2Proof.Laws.Row.Statement (.vldff f) := by rintro _ _ ⟨⟩; exact ⟨by decide, by decide⟩
theorem Sys2Proof.Laws.Row.vldp (f : Form) :
    Sys2Proof.Laws.Row.Statement (.vldp f) := by rintro _ _ ⟨⟩; exact ⟨by decide, by decide⟩
theorem Sys2Proof.Laws.Row.chsend (f : Form) :
    Sys2Proof.Laws.Row.Statement (.chsend f) := by rintro _ _ ⟨⟩; exact ⟨by decide, by decide⟩
theorem Sys2Proof.Laws.Row.chrecv (f : Form) :
    Sys2Proof.Laws.Row.Statement (.chrecv f) := by rintro _ _ ⟨⟩; exact ⟨by decide, by decide⟩
theorem Sys2Proof.Laws.Row.mfrset (f : Form) :
    Sys2Proof.Laws.Row.Statement (.mfrset f) := by rintro _ _ ⟨⟩; exact ⟨by decide, by decide⟩
theorem Sys2Proof.Laws.Row.sbind (f : Form) :
    Sys2Proof.Laws.Row.Statement (.sbind f) := by rintro _ _ ⟨⟩; exact ⟨by decide, by decide⟩
theorem Sys2Proof.Laws.Row.sfree (f : Form) :
    Sys2Proof.Laws.Row.Statement (.sfree f) := by rintro _ _ ⟨⟩; exact ⟨by decide, by decide⟩
theorem Sys2Proof.Laws.Row.copy (f : Form) :
    Sys2Proof.Laws.Row.Statement (.copy f) := by rintro _ _ ⟨⟩; exact ⟨by decide, by decide⟩
theorem Sys2Proof.Laws.Row.chcfg (f : Form) :
    Sys2Proof.Laws.Row.Statement (.chcfg f) := by rintro _ _ ⟨⟩; exact ⟨by decide, by decide⟩
theorem Sys2Proof.Laws.Row.amoadd (f : Form) :
    Sys2Proof.Laws.Row.Statement (.amoadd f) := by rintro _ _ ⟨⟩; exact ⟨by decide, by decide⟩
theorem Sys2Proof.Laws.Row.amofadd (f : Form) :
    Sys2Proof.Laws.Row.Statement (.amofadd f) := by rintro _ _ ⟨⟩; exact ⟨by decide, by decide⟩
theorem Sys2Proof.Laws.Row.amomax (f : Form) :
    Sys2Proof.Laws.Row.Statement (.amomax f) := by rintro _ _ ⟨⟩; exact ⟨by decide, by decide⟩
theorem Sys2Proof.Laws.Row.amomin (f : Form) :
    Sys2Proof.Laws.Row.Statement (.amomin f) := by rintro _ _ ⟨⟩; exact ⟨by decide, by decide⟩
theorem Sys2Proof.Laws.Row.amoand (f : Form) :
    Sys2Proof.Laws.Row.Statement (.amoand f) := by rintro _ _ ⟨⟩; exact ⟨by decide, by decide⟩
theorem Sys2Proof.Laws.Row.amoor (f : Form) :
    Sys2Proof.Laws.Row.Statement (.amoor f) := by rintro _ _ ⟨⟩; exact ⟨by decide, by decide⟩
theorem Sys2Proof.Laws.Row.amoswap (f : Form) :
    Sys2Proof.Laws.Row.Statement (.amoswap f) := by rintro _ _ ⟨⟩; exact ⟨by decide, by decide⟩
theorem Sys2Proof.Laws.Row.amocas (f : Form) :
    Sys2Proof.Laws.Row.Statement (.amocas f) := by rintro _ _ ⟨⟩; exact ⟨by decide, by decide⟩
theorem Sys2Proof.Laws.Row.amofmax (f : Form) :
    Sys2Proof.Laws.Row.Statement (.amofmax f) := by rintro _ _ ⟨⟩; exact ⟨by decide, by decide⟩
theorem Sys2Proof.Laws.Row.fence (f : Form) :
    Sys2Proof.Laws.Row.Statement (.fence f) := by rintro _ _ ⟨⟩; exact ⟨by decide, by decide⟩
theorem Sys2Proof.Laws.Row.waitc (f : Form) :
    Sys2Proof.Laws.Row.Statement (.waitc f) := by rintro _ _ ⟨⟩; exact ⟨by decide, by decide⟩
theorem Sys2Proof.Laws.Row.tlwait (f : Form) :
    Sys2Proof.Laws.Row.Statement (.tlwait f) := by rintro _ _ ⟨⟩; exact ⟨by decide, by decide⟩
theorem Sys2Proof.Laws.Row.tlread (f : Form) :
    Sys2Proof.Laws.Row.Statement (.tlread f) := by rintro _ _ ⟨⟩; exact ⟨by decide, by decide⟩
theorem Sys2Proof.Laws.Row.stend (f : Form) :
    Sys2Proof.Laws.Row.Statement (.stend f) := by rintro _ _ ⟨⟩; exact ⟨by decide, by decide⟩
theorem Sys2Proof.Laws.Row.bar (f : Form) :
    Sys2Proof.Laws.Row.Statement (.bar f) := by rintro _ _ ⟨⟩; exact ⟨by decide, by decide⟩
theorem Sys2Proof.Laws.Row.launch (f : Form) :
    Sys2Proof.Laws.Row.Statement (.launch f) := by rintro _ _ ⟨⟩; exact ⟨by decide, by decide⟩
theorem Sys2Proof.Laws.Row.launchNb (f : Form) :
    Sys2Proof.Laws.Row.Statement (.launchNb f) := by rintro _ _ ⟨⟩; exact ⟨by decide, by decide⟩
theorem Sys2Proof.Laws.Row.join (f : Form) :
    Sys2Proof.Laws.Row.Statement (.join f) := by rintro _ _ ⟨⟩; exact ⟨by decide, by decide⟩
theorem Sys2Proof.Laws.Row.cancel (f : Form) :
    Sys2Proof.Laws.Row.Statement (.cancel f) := by rintro _ _ ⟨⟩; exact ⟨by decide, by decide⟩
theorem Sys2Proof.Laws.Row.ccread (f : Form) :
    Sys2Proof.Laws.Row.Statement (.ccread f) := by rintro _ _ ⟨⟩; exact ⟨by decide, by decide⟩
theorem Sys2Proof.Laws.Row.yield (f : Form) :
    Sys2Proof.Laws.Row.Statement (.yield f) := by rintro _ _ ⟨⟩; exact ⟨by decide, by decide⟩
theorem Sys2Proof.Laws.Row.lanepart (f : Form) :
    Sys2Proof.Laws.Row.Statement (.lanepart f) := by rintro _ _ ⟨⟩; exact ⟨by decide, by decide⟩
theorem Sys2Proof.Laws.Row.coll (f : Form) :
    Sys2Proof.Laws.Row.Statement (.coll f) := by rintro _ _ ⟨⟩; exact ⟨by decide, by decide⟩
theorem Sys2Proof.Laws.Row.xsend (f : Form) :
    Sys2Proof.Laws.Row.Statement (.xsend f) := by rintro _ _ ⟨⟩; exact ⟨by decide, by decide⟩
theorem Sys2Proof.Laws.Row.exit (f : Form) :
    Sys2Proof.Laws.Row.Statement (.exit f) := by rintro _ _ ⟨⟩; exact ⟨by decide, by decide⟩
theorem Sys2Proof.Laws.Row.dload (f : Form) :
    Sys2Proof.Laws.Row.Statement (.dload f) := by rintro _ _ ⟨⟩; exact ⟨by decide, by decide⟩
theorem Sys2Proof.Laws.Row.dsync (f : Form) :
    Sys2Proof.Laws.Row.Statement (.dsync f) := by rintro _ _ ⟨⟩; exact ⟨by decide, by decide⟩
theorem Sys2Proof.Laws.Row.dread (f : Form) :
    Sys2Proof.Laws.Row.Statement (.dread f) := by rintro _ _ ⟨⟩; exact ⟨by decide, by decide⟩
theorem Sys2Proof.Laws.Row.sysrd (f : Form) :
    Sys2Proof.Laws.Row.Statement (.sysrd f) := by rintro _ _ ⟨⟩; exact ⟨by decide, by decide⟩
theorem Sys2Proof.Laws.Row.syswr (f : Form) :
    Sys2Proof.Laws.Row.Statement (.syswr f) := by rintro _ _ ⟨⟩; exact ⟨by decide, by decide⟩
theorem Sys2Proof.Laws.Row.sysset (f : Form) :
    Sys2Proof.Laws.Row.Statement (.sysset f) := by rintro _ _ ⟨⟩; exact ⟨by decide, by decide⟩
theorem Sys2Proof.Laws.Row.sysclr (f : Form) :
    Sys2Proof.Laws.Row.Statement (.sysclr f) := by rintro _ _ ⟨⟩; exact ⟨by decide, by decide⟩
theorem Sys2Proof.Laws.Row.svc (f : Form) :
    Sys2Proof.Laws.Row.Statement (.svc f) := by rintro _ _ ⟨⟩; exact ⟨by decide, by decide⟩
theorem Sys2Proof.Laws.Row.trap (f : Form) :
    Sys2Proof.Laws.Row.Statement (.trap f) := by rintro _ _ ⟨⟩; exact ⟨by decide, by decide⟩
theorem Sys2Proof.Laws.Row.tret (f : Form) :
    Sys2Proof.Laws.Row.Statement (.tret f) := by rintro _ _ ⟨⟩; exact ⟨by decide, by decide⟩
theorem Sys2Proof.Laws.Row.tlbinv (f : Form) :
    Sys2Proof.Laws.Row.Statement (.tlbinv f) := by rintro _ _ ⟨⟩; exact ⟨by decide, by decide⟩
theorem Sys2Proof.Laws.Row.brkpt (f : Form) :
    Sys2Proof.Laws.Row.Statement (.brkpt f) := by rintro _ _ ⟨⟩; exact ⟨by decide, by decide⟩
theorem Sys2Proof.Laws.Row.dictionaryWord (e : BitVec 8) (a b c : Field) :
    Sys2Proof.Laws.Row.Statement (.dictionaryWord e a b c) := fun _ _ h => nomatch h
theorem Sys2Proof.Laws.Row.stripAgeClose (t : Tid) :
    Sys2Proof.Laws.Row.Statement (.stripAgeClose t) := fun _ _ h => nomatch h
theorem Sys2Proof.Laws.Row.engineCommandIssue (t : Tid) :
    Sys2Proof.Laws.Row.Statement (.engineCommandIssue t) := fun _ _ h => nomatch h
theorem Sys2Proof.Laws.Row.waitingContextReady (t : Tid) :
    Sys2Proof.Laws.Row.Statement (.waitingContextReady t) := fun _ _ h => nomatch h
theorem Sys2Proof.Laws.Row.vpGroupYield (t : Tid) :
    Sys2Proof.Laws.Row.Statement (.vpGroupYield t) := fun _ _ h => nomatch h
theorem Sys2Proof.Laws.Row.dictImageLoad (t : Tid) :
    Sys2Proof.Laws.Row.Statement (.dictImageLoad t) := fun _ _ h => nomatch h
theorem Sys2Proof.Laws.Row.streamReadAhead (t : Tid) (sm : Nat) (k : Nat) :
    Sys2Proof.Laws.Row.Statement (.streamReadAhead t sm k) := fun _ _ h => nomatch h
theorem Sys2Proof.Laws.Row.epochEnd (part entry : Nat) :
    Sys2Proof.Laws.Row.Statement (.epochEnd part entry) := fun _ _ h => nomatch h
theorem Sys2Proof.Laws.Row.copyStart (uid tl : Nat) :
    Sys2Proof.Laws.Row.Statement (.copyStart uid tl) := fun _ _ h => nomatch h
theorem Sys2Proof.Laws.Row.copyComplete (uid tl : Nat) :
    Sys2Proof.Laws.Row.Statement (.copyComplete uid tl) := fun _ _ h => nomatch h
theorem Sys2Proof.Laws.Row.tileOperationFire (uid : Nat) :
    Sys2Proof.Laws.Row.Statement (.tileOperationFire uid) := fun _ _ h => nomatch h
theorem Sys2Proof.Laws.Row.tileOperationComplete (uid : Nat) :
    Sys2Proof.Laws.Row.Statement (.tileOperationComplete uid) := fun _ _ h => nomatch h
theorem Sys2Proof.Laws.Row.engineFaultDelivery (t : Tid) :
    Sys2Proof.Laws.Row.Statement (.engineFaultDelivery t) := fun _ _ h => nomatch h
theorem Sys2Proof.Laws.Row.singleStepBreakpoint (t : Tid) :
    Sys2Proof.Laws.Row.Statement (.singleStepBreakpoint t) := fun _ _ h => nomatch h
theorem Sys2Proof.Laws.Row.rprSuspWrite (t : Tid) :
    Sys2Proof.Laws.Row.Statement (.rprSuspWrite t) := fun _ _ h => nomatch h
theorem Sys2Proof.Laws.Row.cpstatSuspWrite (t : Tid) (n : Nat) :
    Sys2Proof.Laws.Row.Statement (.cpstatSuspWrite t n) := fun _ _ h => nomatch h
theorem Sys2Proof.Laws.Row.vtrWrite (t : Tid) (v : W64) :
    Sys2Proof.Laws.Row.Statement (.vtrWrite t v) := fun _ _ h => nomatch h
theorem Sys2Proof.Laws.Row.endunitWrite (t : Tid) :
    Sys2Proof.Laws.Row.Statement (.endunitWrite t) := fun _ _ h => nomatch h
theorem Sys2Proof.Laws.Row.ctxtblKick (part : Nat) :
    Sys2Proof.Laws.Row.Statement (.ctxtblKick part) := fun _ _ h => nomatch h
theorem Sys2Proof.Laws.Row.unitPlacement (part cluster : Nat) :
    Sys2Proof.Laws.Row.Statement (.unitPlacement part cluster) := fun _ _ h => nomatch h
theorem Sys2Proof.Laws.Row.threadStart (t : Tid) :
    Sys2Proof.Laws.Row.Statement (.threadStart t) := fun _ _ h => nomatch h
theorem Sys2Proof.Laws.Row.priorityAging (part entry : Nat) :
    Sys2Proof.Laws.Row.Statement (.priorityAging part entry) := fun _ _ h => nomatch h
theorem Sys2Proof.Laws.Row.preemption (part : Nat) :
    Sys2Proof.Laws.Row.Statement (.preemption part) := fun _ _ h => nomatch h
theorem Sys2Proof.Laws.Row.quantumExpiry (part uid : Nat) :
    Sys2Proof.Laws.Row.Statement (.quantumExpiry part uid) := fun _ _ h => nomatch h
theorem Sys2Proof.Laws.Row.idleSwitchOut (uid : Nat) :
    Sys2Proof.Laws.Row.Statement (.idleSwitchOut uid) := fun _ _ h => nomatch h
theorem Sys2Proof.Laws.Row.unitRestore (uid cluster : Nat) :
    Sys2Proof.Laws.Row.Statement (.unitRestore uid cluster) := fun _ _ h => nomatch h
theorem Sys2Proof.Laws.Row.reclaimDeadlineExpiry (t : Tid) :
    Sys2Proof.Laws.Row.Statement (.reclaimDeadlineExpiry t) := fun _ _ h => nomatch h
theorem Sys2Proof.Laws.Row.poolEntryQuarantineEnd (part entry : Nat) :
    Sys2Proof.Laws.Row.Statement (.poolEntryQuarantineEnd part entry) := fun _ _ h => nomatch h
theorem Sys2Proof.Laws.Row.adqtailWrite (part : Nat) (v : W64) :
    Sys2Proof.Laws.Row.Statement (.adqtailWrite part v) := fun _ _ h => nomatch h
theorem Sys2Proof.Laws.Row.hostLaunchCommand (part : Nat) :
    Sys2Proof.Laws.Row.Statement (.hostLaunchCommand part) := fun _ _ h => nomatch h
theorem Sys2Proof.Laws.Row.hostReadCounterCommand (part : Nat) :
    Sys2Proof.Laws.Row.Statement (.hostReadCounterCommand part) := fun _ _ h => nomatch h
theorem Sys2Proof.Laws.Row.hostCancelCommand (part : Nat) :
    Sys2Proof.Laws.Row.Statement (.hostCancelCommand part) := fun _ _ h => nomatch h
theorem Sys2Proof.Laws.Row.hostJoinCommand (part : Nat) :
    Sys2Proof.Laws.Row.Statement (.hostJoinCommand part) := fun _ _ h => nomatch h
theorem Sys2Proof.Laws.Row.hostJoinComplete (part slot : Nat) :
    Sys2Proof.Laws.Row.Statement (.hostJoinComplete part slot) := fun _ _ h => nomatch h
theorem Sys2Proof.Laws.Row.hostCommandInvalid (part : Nat) :
    Sys2Proof.Laws.Row.Statement (.hostCommandInvalid part) := fun _ _ h => nomatch h
theorem Sys2Proof.Laws.Row.doorbellWrite (off : Nat) (v : W64) :
    Sys2Proof.Laws.Row.Statement (.doorbellWrite off v) := fun _ _ h => nomatch h
theorem Sys2Proof.Laws.Row.xsendPacketArrival (part : Nat) (p : Packet) :
    Sys2Proof.Laws.Row.Statement (.xsendPacketArrival part p) := fun _ _ h => nomatch h
theorem Sys2Proof.Laws.Row.xsendLaunchAccept (part k : Nat) :
    Sys2Proof.Laws.Row.Statement (.xsendLaunchAccept part k) := fun _ _ h => nomatch h
theorem Sys2Proof.Laws.Row.terminationRound (part job : Nat) (remote : List RankCount) :
    Sys2Proof.Laws.Row.Statement (.terminationRound part job remote) := fun _ _ h => nomatch h
theorem Sys2Proof.Laws.Row.jobCancelMessage (part job : Nat) :
    Sys2Proof.Laws.Row.Statement (.jobCancelMessage part job) := fun _ _ h => nomatch h
theorem Sys2Proof.Laws.Row.collectiveMatch (part job gl : Nat) (remote : List RemoteDesc) :
    Sys2Proof.Laws.Row.Statement (.collectiveMatch part job gl remote) := fun _ _ h => nomatch h
theorem Sys2Proof.Laws.Row.collectiveChunkFinal (part job gl : Nat) (remote : List RemoteData) (order : List Nat) :
    Sys2Proof.Laws.Row.Statement (.collectiveChunkFinal part job gl remote order) := fun _ _ h => nomatch h
theorem Sys2Proof.Laws.Row.collectiveComplete (part job gl : Nat) :
    Sys2Proof.Laws.Row.Statement (.collectiveComplete part job gl) := fun _ _ h => nomatch h
theorem Sys2Proof.Laws.Row.collectivePatienceExpiry (part job gl : Nat) :
    Sys2Proof.Laws.Row.Statement (.collectivePatienceExpiry part job gl) := fun _ _ h => nomatch h
theorem Sys2Proof.Laws.Row.collectiveMemberLost (part job gl : Nat) :
    Sys2Proof.Laws.Row.Statement (.collectiveMemberLost part job gl) := fun _ _ h => nomatch h
theorem Sys2Proof.Laws.Row.portEnable (port : Nat) :
    Sys2Proof.Laws.Row.Statement (.portEnable port) := fun _ _ h => nomatch h
theorem Sys2Proof.Laws.Row.lanesTrained (port : Nat) :
    Sys2Proof.Laws.Row.Statement (.lanesTrained port) := fun _ _ h => nomatch h
theorem Sys2Proof.Laws.Row.keyAgreed (x : Session) (peer tier rtt : Nat) :
    Sys2Proof.Laws.Row.Statement (.keyAgreed x peer tier rtt) := fun _ _ h => nomatch h
theorem Sys2Proof.Laws.Row.peerAttestationFailure (x : Session) :
    Sys2Proof.Laws.Row.Statement (.peerAttestationFailure x) := fun _ _ h => nomatch h
theorem Sys2Proof.Laws.Row.flitReceive (port : Nat) (f : Flit) :
    Sys2Proof.Laws.Row.Statement (.flitReceive port f) := fun _ _ h => nomatch h
theorem Sys2Proof.Laws.Row.flitResend (f : FlitName) :
    Sys2Proof.Laws.Row.Statement (.flitResend f) := fun _ _ h => nomatch h
theorem Sys2Proof.Laws.Row.retryWindowAcknowledged (a : FlitAck) :
    Sys2Proof.Laws.Row.Statement (.retryWindowAcknowledged a) := fun _ _ h => nomatch h
theorem Sys2Proof.Laws.Row.keyReagreement (x : Session) :
    Sys2Proof.Laws.Row.Statement (.keyReagreement x) := fun _ _ h => nomatch h
theorem Sys2Proof.Laws.Row.persistentLaneFailure (port : Nat) :
    Sys2Proof.Laws.Row.Statement (.persistentLaneFailure port) := fun _ _ h => nomatch h
theorem Sys2Proof.Laws.Row.linkFailure (port : Nat) :
    Sys2Proof.Laws.Row.Statement (.linkFailure port) := fun _ _ h => nomatch h
theorem Sys2Proof.Laws.Row.portRetrain (port : Nat) :
    Sys2Proof.Laws.Row.Statement (.portRetrain port) := fun _ _ h => nomatch h
theorem Sys2Proof.Laws.Row.ingressWrite (dest : Inbound) (bytes : List Byte) :
    Sys2Proof.Laws.Row.Statement (.ingressWrite dest bytes) := fun _ _ h => nomatch h
theorem Sys2Proof.Laws.Row.egressLine (port pa : Nat) :
    Sys2Proof.Laws.Row.Statement (.egressLine port pa) := fun _ _ h => nomatch h
theorem Sys2Proof.Laws.Row.sramCorrectedError (die core : Nat) (lane : Option Nat) :
    Sys2Proof.Laws.Row.Statement (.sramCorrectedError die core lane) := fun _ _ h => nomatch h
theorem Sys2Proof.Laws.Row.sramUncorrectableError (core lane : Nat) (shadowOk : Bool) :
    Sys2Proof.Laws.Row.Statement (.sramUncorrectableError core lane shadowOk) := fun _ _ h => nomatch h
theorem Sys2Proof.Laws.Row.dramCorrectedError (pa : Nat) :
    Sys2Proof.Laws.Row.Statement (.dramCorrectedError pa) := fun _ _ h => nomatch h
theorem Sys2Proof.Laws.Row.dramUncorrectableError (pa : Nat) :
    Sys2Proof.Laws.Row.Statement (.dramUncorrectableError pa) := fun _ _ h => nomatch h
theorem Sys2Proof.Laws.Row.partitionChange (d : Division) :
    Sys2Proof.Laws.Row.Statement (.partitionChange d) := fun _ _ h => nomatch h
theorem Sys2Proof.Laws.Row.attestationReport (part job : Nat) (nonce : List Byte) :
    Sys2Proof.Laws.Row.Statement (.attestationReport part job nonce) := fun _ _ h => nomatch h
theorem Sys2Proof.Laws.Row.powerOn (b : BootInput) :
    Sys2Proof.Laws.Row.Statement (.powerOn b) := fun _ _ h => nomatch h
theorem Sys2Proof.Laws.Row.railOutOfTolerance (rail : Nat) :
    Sys2Proof.Laws.Row.Statement (.railOutOfTolerance rail) := fun _ _ h => nomatch h
theorem Sys2Proof.Laws.Row.clockReduction (part die : Nat) :
    Sys2Proof.Laws.Row.Statement (.clockReduction part die) := fun _ _ h => nomatch h
theorem Sys2Proof.Laws.Row.clockRaise (part die : Nat) :
    Sys2Proof.Laws.Row.Statement (.clockRaise part die) := fun _ _ h => nomatch h
theorem Sys2Proof.Laws.Row.thermalShutdown (temp : Nat) :
    Sys2Proof.Laws.Row.Statement (.thermalShutdown temp) := fun _ _ h => nomatch h
theorem Sys2Proof.Laws.Row.stripStoresPerform (t : Tid) (k : Nat) :
    Sys2Proof.Laws.Row.Statement (.stripStoresPerform t k) := fun _ _ h => nomatch h
theorem Sys2Proof.Laws.Row.groupRegistration (part job num : Nat) (g : Group) :
    Sys2Proof.Laws.Row.Statement (.groupRegistration part job num g) := fun _ _ h => nomatch h
theorem Sys2Proof.Laws.Row.cccfgWrite (cluster : Nat) (v : W64) :
    Sys2Proof.Laws.Row.Statement (.cccfgWrite cluster v) := fun _ _ h => nomatch h
theorem Sys2Proof.Laws.Row.adqWrite (part : Nat) (v : W64) :
    Sys2Proof.Laws.Row.Statement (.adqWrite part v) := fun _ _ h => nomatch h
end

