-- ==== Sys2Proof/Laws/State.lean ====
section
/-! SUPPORT. One lemma for each field and each of the updates that the operations are made of, all true by rfl. -/

namespace Sys2Proof.Machine

open Sys2Proof

/-! ### withArch -/

@[simp] theorem withArch_u (s : State) (a : Arch) : (withArch s a).u = s.u := rfl
@[simp] theorem withArch_units (s : State) (a : Arch) : (withArch s a).units = s.units := rfl
@[simp] theorem withArch_parts (s : State) (a : Arch) : (withArch s a).parts = s.parts := rfl
@[simp] theorem withArch_ports (s : State) (a : Arch) : (withArch s a).ports = s.ports := rfl
@[simp] theorem withArch_cccfg (s : State) (a : Arch) : (withArch s a).cccfg = s.cccfg := rfl
@[simp] theorem withArch_mem (s : State) (a : Arch) : (withArch s a).mem = s.mem := rfl
@[simp] theorem withArch_poison (s : State) (a : Arch) : (withArch s a).poison = s.poison := rfl
@[simp] theorem withArch_guards (s : State) (a : Arch) : (withArch s a).guards = s.guards := rfl
@[simp] theorem withArch_frameErrors (s : State) (a : Arch) : (withArch s a).frameErrors = s.frameErrors := rfl
@[simp] theorem withArch_laneErrors (s : State) (a : Arch) : (withArch s a).laneErrors = s.laneErrors := rfl
@[simp] theorem withArch_dies (s : State) (a : Arch) : (withArch s a).dies = s.dies := rfl
@[simp] theorem withArch_ioMap (s : State) (a : Arch) : (withArch s a).ioMap = s.ioMap := rfl
@[simp] theorem withArch_boot (s : State) (a : Arch) : (withArch s a).boot = s.boot := rfl
@[simp] theorem withArch_powered (s : State) (a : Arch) : (withArch s a).powered = s.powered := rfl
@[simp] theorem withArch_stage (s : State) (a : Arch) : (withArch s a).stage = s.stage := rfl
@[simp] theorem withArch_image (s : State) (a : Arch) : (withArch s a).image = s.image := rfl
@[simp] theorem withArch_bootFail (s : State) (a : Arch) : (withArch s a).bootFail = s.bootFail := rfl
@[simp] theorem withArch_capptr (s : State) (a : Arch) : (withArch s a).capptr = s.capptr := rfl
@[simp] theorem withArch_config (s : State) (a : Arch) : (withArch s a).config = s.config := rfl
@[simp] theorem withArch_flash (s : State) (a : Arch) : (withArch s a).flash = s.flash := rfl
@[simp] theorem withArch_fuseKey (s : State) (a : Arch) : (withArch s a).fuseKey = s.fuseKey := rfl
@[simp] theorem withArch_mapp (s : State) (a : Arch) : (withArch s a).mapp = s.mapp := rfl
@[simp] theorem withArch_mcomp (s : State) (a : Arch) : (withArch s a).mcomp = s.mcomp := rfl
@[simp] theorem withArch_mran (s : State) (a : Arch) : (withArch s a).mran = s.mran := rfl
@[simp] theorem withArch_attSeq (s : State) (a : Arch) : (withArch s a).attSeq = s.attSeq := rfl
@[simp] theorem withArch_reports (s : State) (a : Arch) : (withArch s a).reports = s.reports := rfl
@[simp] theorem withArch_doorbells (s : State) (a : Arch) : (withArch s a).doorbells = s.doorbells := rfl
@[simp] theorem withArch_time (s : State) (a : Arch) : (withArch s a).time = s.time := rfl
@[simp] theorem withArch_nextUid (s : State) (a : Arch) : (withArch s a).nextUid = s.nextUid := rfl
@[simp] theorem withArch_freeCtr (s : State) (a : Arch) : (withArch s a).freeCtr = s.freeCtr := rfl
@[simp] theorem withArch_agenda (s : State) (a : Arch) : (withArch s a).agenda = s.agenda := rfl
@[simp] theorem withArch_t_live (s : State) (a : Arch) : (withArch s a).t.live = s.t.live := rfl
@[simp] theorem withArch_t_slot (s : State) (a : Arch) : (withArch s a).t.slot = s.t.slot := rfl
@[simp] theorem withArch_t_mode (s : State) (a : Arch) : (withArch s a).t.mode = s.t.mode := rfl
@[simp] theorem withArch_t_arch (s : State) (a : Arch) : (withArch s a).t.arch = a := rfl
@[simp] theorem withArch_t_ckpt (s : State) (a : Arch) : (withArch s a).t.ckpt = s.t.ckpt := rfl
@[simp] theorem withArch_t_strip (s : State) (a : Arch) : (withArch s a).t.strip = s.t.strip := rfl
@[simp] theorem withArch_t_performing (s : State) (a : Arch) : (withArch s a).t.performing = s.t.performing := rfl
@[simp] theorem withArch_t_spc (s : State) (a : Arch) : (withArch s a).t.spc = s.t.spc := rfl
@[simp] theorem withArch_t_sfi (s : State) (a : Arch) : (withArch s a).t.sfi = s.t.sfi := rfl
@[simp] theorem withArch_t_tvec (s : State) (a : Arch) : (withArch s a).t.tvec = s.t.tvec := rfl
@[simp] theorem withArch_t_tstat (s : State) (a : Arch) : (withArch s a).t.tstat = s.t.tstat := rfl
@[simp] theorem withArch_t_tpc (s : State) (a : Arch) : (withArch s a).t.tpc = s.t.tpc := rfl
@[simp] theorem withArch_t_tcause (s : State) (a : Arch) : (withArch s a).t.tcause = s.t.tcause := rfl
@[simp] theorem withArch_t_tval (s : State) (a : Arch) : (withArch s a).t.tval = s.t.tval := rfl
@[simp] theorem withArch_t_telem (s : State) (a : Arch) : (withArch s a).t.telem = s.t.telem := rfl
@[simp] theorem withArch_t_tscr0 (s : State) (a : Arch) : (withArch s a).t.tscr0 = s.t.tscr0 := rfl
@[simp] theorem withArch_t_tscr1 (s : State) (a : Arch) : (withArch s a).t.tscr1 = s.t.tscr1 := rfl
@[simp] theorem withArch_t_dict (s : State) (a : Arch) : (withArch s a).t.dict = s.t.dict := rfl
@[simp] theorem withArch_t_dictLoading (s : State) (a : Arch) : (withArch s a).t.dictLoading = s.t.dictLoading := rfl
@[simp] theorem withArch_t_dictPending (s : State) (a : Arch) : (withArch s a).t.dictPending = s.t.dictPending := rfl
@[simp] theorem withArch_t_image (s : State) (a : Arch) : (withArch s a).t.image = s.t.image := rfl
@[simp] theorem withArch_t_own (s : State) (a : Arch) : (withArch s a).t.own = s.t.own := rfl
@[simp] theorem withArch_t_pend (s : State) (a : Arch) : (withArch s a).t.pend = s.t.pend := rfl
@[simp] theorem withArch_t_dem (s : State) (a : Arch) : (withArch s a).t.dem = s.t.dem := rfl
@[simp] theorem withArch_t_lanes (s : State) (a : Arch) : (withArch s a).t.lanes = s.t.lanes := rfl
@[simp] theorem withArch_t_poolNeed (s : State) (a : Arch) : (withArch s a).t.poolNeed = s.t.poolNeed := rfl
@[simp] theorem withArch_t_ttol (s : State) (a : Arch) : (withArch s a).t.ttol = s.t.ttol := rfl
@[simp] theorem withArch_t_tsweep (s : State) (a : Arch) : (withArch s a).t.tsweep = s.t.tsweep := rfl
@[simp] theorem withArch_t_tmode (s : State) (a : Arch) : (withArch s a).t.tmode = s.t.tmode := rfl
@[simp] theorem withArch_t_tileNeed (s : State) (a : Arch) : (withArch s a).t.tileNeed = s.t.tileNeed := rfl
@[simp] theorem withArch_t_wait (s : State) (a : Arch) : (withArch s a).t.wait = s.t.wait := rfl
@[simp] theorem withArch_t_vpHeld (s : State) (a : Arch) : (withArch s a).t.vpHeld = s.t.vpHeld := rfl
@[simp] theorem withArch_t_stepArmed (s : State) (a : Arch) : (withArch s a).t.stepArmed = s.t.stepArmed := rfl
@[simp] theorem withArch_t_stepDue (s : State) (a : Arch) : (withArch s a).t.stepDue = s.t.stepDue := rfl
@[simp] theorem withArch_t_epoch (s : State) (a : Arch) : (withArch s a).t.epoch = s.t.epoch := rfl
@[simp] theorem withArch_t_wcb (s : State) (a : Arch) : (withArch s a).t.wcb = s.t.wcb := rfl
@[simp] theorem withArch_t_noRollback (s : State) (a : Arch) : (withArch s a).t.noRollback = s.t.noRollback := rfl
@[simp] theorem withArch_t_away (s : State) (a : Arch) : (withArch s a).t.away = s.t.away := rfl
@[simp] theorem withArch_t_discard (s : State) (a : Arch) : (withArch s a).t.discard = s.t.discard := rfl
@[simp] theorem withArch_t_pendAt (s : State) (a : Arch) : (withArch s a).t.pendAt = s.t.pendAt := rfl
@[simp] theorem withArch_t_stripAge (s : State) (a : Arch) : (withArch s a).t.stripAge = s.t.stripAge := rfl
@[simp] theorem withArch_t_iword (s : State) (a : Arch) : (withArch s a).t.iword = s.t.iword := rfl

/-- Replacing the registers twice keeps the last. -/
@[simp] theorem withArch_withArch (s : State) (a b : Arch) : withArch (withArch s a) b = withArch s b := rfl

/-- Replacing the registers by themselves changes nothing. -/
@[simp] theorem withArch_self (s : State) : withArch s s.t.arch = s := rfl

/-! ### withWord, complete, commit, openStrip -/

@[simp] theorem withWord_u (s : State) (v : W64) : (withWord s v).u = s.u := rfl
@[simp] theorem complete_u (s : State) : (complete s).u = s.u := rfl
@[simp] theorem commit_u (s : State) : (commit s).u = s.u := rfl
@[simp] theorem openStrip_u (s : State) (n : Nat) : (openStrip s n).u = s.u := rfl
@[simp] theorem withWord_units (s : State) (v : W64) : (withWord s v).units = s.units := rfl
@[simp] theorem complete_units (s : State) : (complete s).units = s.units := rfl
@[simp] theorem commit_units (s : State) : (commit s).units = s.units := rfl
@[simp] theorem openStrip_units (s : State) (n : Nat) : (openStrip s n).units = s.units := rfl
@[simp] theorem withWord_parts (s : State) (v : W64) : (withWord s v).parts = s.parts := rfl
@[simp] theorem complete_parts (s : State) : (complete s).parts = s.parts := rfl
@[simp] theorem commit_parts (s : State) : (commit s).parts = s.parts := rfl
@[simp] theorem openStrip_parts (s : State) (n : Nat) : (openStrip s n).parts = s.parts := rfl
@[simp] theorem withWord_ports (s : State) (v : W64) : (withWord s v).ports = s.ports := rfl
@[simp] theorem complete_ports (s : State) : (complete s).ports = s.ports := rfl
@[simp] theorem commit_ports (s : State) : (commit s).ports = s.ports := rfl
@[simp] theorem openStrip_ports (s : State) (n : Nat) : (openStrip s n).ports = s.ports := rfl
@[simp] theorem withWord_cccfg (s : State) (v : W64) : (withWord s v).cccfg = s.cccfg := rfl
@[simp] theorem complete_cccfg (s : State) : (complete s).cccfg = s.cccfg := rfl
@[simp] theorem commit_cccfg (s : State) : (commit s).cccfg = s.cccfg := rfl
@[simp] theorem openStrip_cccfg (s : State) (n : Nat) : (openStrip s n).cccfg = s.cccfg := rfl
@[simp] theorem withWord_mem (s : State) (v : W64) : (withWord s v).mem = s.mem := rfl
@[simp] theorem complete_mem (s : State) : (complete s).mem = s.mem := rfl
@[simp] theorem commit_mem (s : State) : (commit s).mem = s.mem := rfl
@[simp] theorem openStrip_mem (s : State) (n : Nat) : (openStrip s n).mem = s.mem := rfl
@[simp] theorem withWord_poison (s : State) (v : W64) : (withWord s v).poison = s.poison := rfl
@[simp] theorem complete_poison (s : State) : (complete s).poison = s.poison := rfl
@[simp] theorem commit_poison (s : State) : (commit s).poison = s.poison := rfl
@[simp] theorem openStrip_poison (s : State) (n : Nat) : (openStrip s n).poison = s.poison := rfl
@[simp] theorem withWord_guards (s : State) (v : W64) : (withWord s v).guards = s.guards := rfl
@[simp] theorem complete_guards (s : State) : (complete s).guards = s.guards := rfl
@[simp] theorem commit_guards (s : State) : (commit s).guards = s.guards := rfl
@[simp] theorem openStrip_guards (s : State) (n : Nat) : (openStrip s n).guards = s.guards := rfl
@[simp] theorem withWord_frameErrors (s : State) (v : W64) : (withWord s v).frameErrors = s.frameErrors := rfl
@[simp] theorem complete_frameErrors (s : State) : (complete s).frameErrors = s.frameErrors := rfl
@[simp] theorem commit_frameErrors (s : State) : (commit s).frameErrors = s.frameErrors := rfl
@[simp] theorem openStrip_frameErrors (s : State) (n : Nat) : (openStrip s n).frameErrors = s.frameErrors := rfl
@[simp] theorem withWord_laneErrors (s : State) (v : W64) : (withWord s v).laneErrors = s.laneErrors := rfl
@[simp] theorem withWord_dies (s : State) (v : W64) : (withWord s v).dies = s.dies := rfl
@[simp] theorem withWord_ioMap (s : State) (v : W64) : (withWord s v).ioMap = s.ioMap := rfl
@[simp] theorem withWord_boot (s : State) (v : W64) : (withWord s v).boot = s.boot := rfl
@[simp] theorem complete_laneErrors (s : State) : (complete s).laneErrors = s.laneErrors := rfl
@[simp] theorem complete_dies (s : State) : (complete s).dies = s.dies := rfl
@[simp] theorem complete_ioMap (s : State) : (complete s).ioMap = s.ioMap := rfl
@[simp] theorem complete_boot (s : State) : (complete s).boot = s.boot := rfl
@[simp] theorem commit_laneErrors (s : State) : (commit s).laneErrors = s.laneErrors := rfl
@[simp] theorem commit_dies (s : State) : (commit s).dies = s.dies := rfl
@[simp] theorem commit_ioMap (s : State) : (commit s).ioMap = s.ioMap := rfl
@[simp] theorem commit_boot (s : State) : (commit s).boot = s.boot := rfl
@[simp] theorem openStrip_laneErrors (s : State) (n : Nat) : (openStrip s n).laneErrors = s.laneErrors := rfl
@[simp] theorem openStrip_dies (s : State) (n : Nat) : (openStrip s n).dies = s.dies := rfl
@[simp] theorem openStrip_ioMap (s : State) (n : Nat) : (openStrip s n).ioMap = s.ioMap := rfl
@[simp] theorem openStrip_boot (s : State) (n : Nat) : (openStrip s n).boot = s.boot := rfl
@[simp] theorem withWord_powered (s : State) (v : W64) : (withWord s v).powered = s.powered := rfl
@[simp] theorem complete_powered (s : State) : (complete s).powered = s.powered := rfl
@[simp] theorem commit_powered (s : State) : (commit s).powered = s.powered := rfl
@[simp] theorem openStrip_powered (s : State) (n : Nat) : (openStrip s n).powered = s.powered := rfl
@[simp] theorem withWord_stage (s : State) (v : W64) : (withWord s v).stage = s.stage := rfl
@[simp] theorem complete_stage (s : State) : (complete s).stage = s.stage := rfl
@[simp] theorem commit_stage (s : State) : (commit s).stage = s.stage := rfl
@[simp] theorem openStrip_stage (s : State) (n : Nat) : (openStrip s n).stage = s.stage := rfl
@[simp] theorem withWord_image (s : State) (v : W64) : (withWord s v).image = s.image := rfl
@[simp] theorem complete_image (s : State) : (complete s).image = s.image := rfl
@[simp] theorem commit_image (s : State) : (commit s).image = s.image := rfl
@[simp] theorem openStrip_image (s : State) (n : Nat) : (openStrip s n).image = s.image := rfl
@[simp] theorem withWord_bootFail (s : State) (v : W64) : (withWord s v).bootFail = s.bootFail := rfl
@[simp] theorem complete_bootFail (s : State) : (complete s).bootFail = s.bootFail := rfl
@[simp] theorem commit_bootFail (s : State) : (commit s).bootFail = s.bootFail := rfl
@[simp] theorem openStrip_bootFail (s : State) (n : Nat) : (openStrip s n).bootFail = s.bootFail := rfl
@[simp] theorem withWord_capptr (s : State) (v : W64) : (withWord s v).capptr = s.capptr := rfl
@[simp] theorem complete_capptr (s : State) : (complete s).capptr = s.capptr := rfl
@[simp] theorem commit_capptr (s : State) : (commit s).capptr = s.capptr := rfl
@[simp] theorem openStrip_capptr (s : State) (n : Nat) : (openStrip s n).capptr = s.capptr := rfl
@[simp] theorem withWord_config (s : State) (v : W64) : (withWord s v).config = s.config := rfl
@[simp] theorem complete_config (s : State) : (complete s).config = s.config := rfl
@[simp] theorem commit_config (s : State) : (commit s).config = s.config := rfl
@[simp] theorem openStrip_config (s : State) (n : Nat) : (openStrip s n).config = s.config := rfl
@[simp] theorem withWord_flash (s : State) (v : W64) : (withWord s v).flash = s.flash := rfl
@[simp] theorem withWord_fuseKey (s : State) (v : W64) : (withWord s v).fuseKey = s.fuseKey := rfl
@[simp] theorem complete_flash (s : State) : (complete s).flash = s.flash := rfl
@[simp] theorem complete_fuseKey (s : State) : (complete s).fuseKey = s.fuseKey := rfl
@[simp] theorem commit_flash (s : State) : (commit s).flash = s.flash := rfl
@[simp] theorem commit_fuseKey (s : State) : (commit s).fuseKey = s.fuseKey := rfl
@[simp] theorem openStrip_flash (s : State) (n : Nat) : (openStrip s n).flash = s.flash := rfl
@[simp] theorem openStrip_fuseKey (s : State) (n : Nat) : (openStrip s n).fuseKey = s.fuseKey := rfl
@[simp] theorem withWord_mapp (s : State) (v : W64) : (withWord s v).mapp = s.mapp := rfl
@[simp] theorem complete_mapp (s : State) : (complete s).mapp = s.mapp := rfl
@[simp] theorem commit_mapp (s : State) : (commit s).mapp = s.mapp := rfl
@[simp] theorem openStrip_mapp (s : State) (n : Nat) : (openStrip s n).mapp = s.mapp := rfl
@[simp] theorem withWord_mcomp (s : State) (v : W64) : (withWord s v).mcomp = s.mcomp := rfl
@[simp] theorem complete_mcomp (s : State) : (complete s).mcomp = s.mcomp := rfl
@[simp] theorem commit_mcomp (s : State) : (commit s).mcomp = s.mcomp := rfl
@[simp] theorem openStrip_mcomp (s : State) (n : Nat) : (openStrip s n).mcomp = s.mcomp := rfl
@[simp] theorem withWord_mran (s : State) (v : W64) : (withWord s v).mran = s.mran := rfl
@[simp] theorem complete_mran (s : State) : (complete s).mran = s.mran := rfl
@[simp] theorem commit_mran (s : State) : (commit s).mran = s.mran := rfl
@[simp] theorem openStrip_mran (s : State) (n : Nat) : (openStrip s n).mran = s.mran := rfl
@[simp] theorem withWord_attSeq (s : State) (v : W64) : (withWord s v).attSeq = s.attSeq := rfl
@[simp] theorem complete_attSeq (s : State) : (complete s).attSeq = s.attSeq := rfl
@[simp] theorem commit_attSeq (s : State) : (commit s).attSeq = s.attSeq := rfl
@[simp] theorem openStrip_attSeq (s : State) (n : Nat) : (openStrip s n).attSeq = s.attSeq := rfl
@[simp] theorem withWord_reports (s : State) (v : W64) : (withWord s v).reports = s.reports := rfl
@[simp] theorem complete_reports (s : State) : (complete s).reports = s.reports := rfl
@[simp] theorem commit_reports (s : State) : (commit s).reports = s.reports := rfl
@[simp] theorem openStrip_reports (s : State) (n : Nat) : (openStrip s n).reports = s.reports := rfl
@[simp] theorem withWord_doorbells (s : State) (v : W64) : (withWord s v).doorbells = s.doorbells := rfl
@[simp] theorem complete_doorbells (s : State) : (complete s).doorbells = s.doorbells := rfl
@[simp] theorem commit_doorbells (s : State) : (commit s).doorbells = s.doorbells := rfl
@[simp] theorem openStrip_doorbells (s : State) (n : Nat) : (openStrip s n).doorbells = s.doorbells := rfl
@[simp] theorem withWord_time (s : State) (v : W64) : (withWord s v).time = s.time := rfl
@[simp] theorem complete_time (s : State) : (complete s).time = s.time := rfl
@[simp] theorem commit_time (s : State) : (commit s).time = s.time := rfl
@[simp] theorem openStrip_time (s : State) (n : Nat) : (openStrip s n).time = s.time := rfl
@[simp] theorem withWord_nextUid (s : State) (v : W64) : (withWord s v).nextUid = s.nextUid := rfl
@[simp] theorem complete_nextUid (s : State) : (complete s).nextUid = s.nextUid := rfl
@[simp] theorem commit_nextUid (s : State) : (commit s).nextUid = s.nextUid := rfl
@[simp] theorem openStrip_nextUid (s : State) (n : Nat) : (openStrip s n).nextUid = s.nextUid := rfl
@[simp] theorem withWord_freeCtr (s : State) (v : W64) : (withWord s v).freeCtr = s.freeCtr := rfl
@[simp] theorem complete_freeCtr (s : State) : (complete s).freeCtr = s.freeCtr := rfl
@[simp] theorem commit_freeCtr (s : State) : (commit s).freeCtr = s.freeCtr := rfl
@[simp] theorem openStrip_freeCtr (s : State) (n : Nat) : (openStrip s n).freeCtr = s.freeCtr := rfl
@[simp] theorem withWord_agenda (s : State) (v : W64) : (withWord s v).agenda = s.agenda := rfl
@[simp] theorem complete_agenda (s : State) : (complete s).agenda = s.agenda := rfl
@[simp] theorem commit_agenda (s : State) : (commit s).agenda = s.agenda := rfl
@[simp] theorem openStrip_agenda (s : State) (n : Nat) : (openStrip s n).agenda = s.agenda := rfl
@[simp] theorem withWord_t_live (s : State) (v : W64) : (withWord s v).t.live = s.t.live := rfl
@[simp] theorem commit_t_live (s : State) : (commit s).t.live = s.t.live := rfl
@[simp] theorem withWord_t_slot (s : State) (v : W64) : (withWord s v).t.slot = s.t.slot := rfl
@[simp] theorem commit_t_slot (s : State) : (commit s).t.slot = s.t.slot := rfl
@[simp] theorem withWord_t_mode (s : State) (v : W64) : (withWord s v).t.mode = s.t.mode := rfl
@[simp] theorem commit_t_mode (s : State) : (commit s).t.mode = s.t.mode := rfl
@[simp] theorem withWord_t_arch (s : State) (v : W64) : (withWord s v).t.arch = s.t.arch := rfl
@[simp] theorem commit_t_arch (s : State) : (commit s).t.arch = s.t.arch := rfl
@[simp] theorem withWord_t_ckpt (s : State) (v : W64) : (withWord s v).t.ckpt = s.t.ckpt := rfl
@[simp] theorem commit_t_ckpt (s : State) : (commit s).t.ckpt = s.t.ckpt := rfl
@[simp] theorem withWord_t_strip (s : State) (v : W64) : (withWord s v).t.strip = s.t.strip := rfl
@[simp] theorem withWord_t_performing (s : State) (v : W64) : (withWord s v).t.performing = s.t.performing := rfl
@[simp] theorem withWord_t_spc (s : State) (v : W64) : (withWord s v).t.spc = s.t.spc := rfl
@[simp] theorem commit_t_spc (s : State) : (commit s).t.spc = s.t.spc := rfl
@[simp] theorem withWord_t_sfi (s : State) (v : W64) : (withWord s v).t.sfi = s.t.sfi := rfl
@[simp] theorem commit_t_sfi (s : State) : (commit s).t.sfi = s.t.sfi := rfl
@[simp] theorem withWord_t_tvec (s : State) (v : W64) : (withWord s v).t.tvec = s.t.tvec := rfl
@[simp] theorem commit_t_tvec (s : State) : (commit s).t.tvec = s.t.tvec := rfl
@[simp] theorem withWord_t_tstat (s : State) (v : W64) : (withWord s v).t.tstat = s.t.tstat := rfl
@[simp] theorem commit_t_tstat (s : State) : (commit s).t.tstat = s.t.tstat := rfl
@[simp] theorem withWord_t_tpc (s : State) (v : W64) : (withWord s v).t.tpc = s.t.tpc := rfl
@[simp] theorem commit_t_tpc (s : State) : (commit s).t.tpc = s.t.tpc := rfl
@[simp] theorem withWord_t_tcause (s : State) (v : W64) : (withWord s v).t.tcause = s.t.tcause := rfl
@[simp] theorem commit_t_tcause (s : State) : (commit s).t.tcause = s.t.tcause := rfl
@[simp] theorem withWord_t_tval (s : State) (v : W64) : (withWord s v).t.tval = s.t.tval := rfl
@[simp] theorem commit_t_tval (s : State) : (commit s).t.tval = s.t.tval := rfl
@[simp] theorem withWord_t_telem (s : State) (v : W64) : (withWord s v).t.telem = s.t.telem := rfl
@[simp] theorem commit_t_telem (s : State) : (commit s).t.telem = s.t.telem := rfl
@[simp] theorem withWord_t_tscr0 (s : State) (v : W64) : (withWord s v).t.tscr0 = s.t.tscr0 := rfl
@[simp] theorem commit_t_tscr0 (s : State) : (commit s).t.tscr0 = s.t.tscr0 := rfl
@[simp] theorem withWord_t_tscr1 (s : State) (v : W64) : (withWord s v).t.tscr1 = s.t.tscr1 := rfl
@[simp] theorem commit_t_tscr1 (s : State) : (commit s).t.tscr1 = s.t.tscr1 := rfl
@[simp] theorem withWord_t_dict (s : State) (v : W64) : (withWord s v).t.dict = s.t.dict := rfl
@[simp] theorem commit_t_dict (s : State) : (commit s).t.dict = s.t.dict := rfl
@[simp] theorem withWord_t_dictLoading (s : State) (v : W64) : (withWord s v).t.dictLoading = s.t.dictLoading := rfl
@[simp] theorem commit_t_dictLoading (s : State) : (commit s).t.dictLoading = s.t.dictLoading := rfl
@[simp] theorem withWord_t_dictPending (s : State) (v : W64) : (withWord s v).t.dictPending = s.t.dictPending := rfl
@[simp] theorem commit_t_dictPending (s : State) : (commit s).t.dictPending = s.t.dictPending := rfl
@[simp] theorem withWord_t_image (s : State) (v : W64) : (withWord s v).t.image = s.t.image := rfl
@[simp] theorem commit_t_image (s : State) : (commit s).t.image = s.t.image := rfl
@[simp] theorem withWord_t_own (s : State) (v : W64) : (withWord s v).t.own = s.t.own := rfl
@[simp] theorem commit_t_own (s : State) : (commit s).t.own = s.t.own := rfl
@[simp] theorem withWord_t_pend (s : State) (v : W64) : (withWord s v).t.pend = s.t.pend := rfl
@[simp] theorem commit_t_pend (s : State) : (commit s).t.pend = s.t.pend := rfl
@[simp] theorem withWord_t_dem (s : State) (v : W64) : (withWord s v).t.dem = s.t.dem := rfl
@[simp] theorem commit_t_dem (s : State) : (commit s).t.dem = s.t.dem := rfl
@[simp] theorem withWord_t_lanes (s : State) (v : W64) : (withWord s v).t.lanes = s.t.lanes := rfl
@[simp] theorem commit_t_lanes (s : State) : (commit s).t.lanes = s.t.lanes := rfl
@[simp] theorem withWord_t_poolNeed (s : State) (v : W64) : (withWord s v).t.poolNeed = s.t.poolNeed := rfl
@[simp] theorem commit_t_poolNeed (s : State) : (commit s).t.poolNeed = s.t.poolNeed := rfl
@[simp] theorem withWord_t_ttol (s : State) (v : W64) : (withWord s v).t.ttol = s.t.ttol := rfl
@[simp] theorem commit_t_ttol (s : State) : (commit s).t.ttol = s.t.ttol := rfl
@[simp] theorem withWord_t_tsweep (s : State) (v : W64) : (withWord s v).t.tsweep = s.t.tsweep := rfl
@[simp] theorem commit_t_tsweep (s : State) : (commit s).t.tsweep = s.t.tsweep := rfl
@[simp] theorem withWord_t_tmode (s : State) (v : W64) : (withWord s v).t.tmode = s.t.tmode := rfl
@[simp] theorem commit_t_tmode (s : State) : (commit s).t.tmode = s.t.tmode := rfl
@[simp] theorem withWord_t_tileNeed (s : State) (v : W64) : (withWord s v).t.tileNeed = s.t.tileNeed := rfl
@[simp] theorem commit_t_tileNeed (s : State) : (commit s).t.tileNeed = s.t.tileNeed := rfl
@[simp] theorem withWord_t_wait (s : State) (v : W64) : (withWord s v).t.wait = s.t.wait := rfl
@[simp] theorem commit_t_wait (s : State) : (commit s).t.wait = s.t.wait := rfl
@[simp] theorem withWord_t_vpHeld (s : State) (v : W64) : (withWord s v).t.vpHeld = s.t.vpHeld := rfl
@[simp] theorem commit_t_vpHeld (s : State) : (commit s).t.vpHeld = s.t.vpHeld := rfl
@[simp] theorem withWord_t_stepArmed (s : State) (v : W64) : (withWord s v).t.stepArmed = s.t.stepArmed := rfl
@[simp] theorem commit_t_stepArmed (s : State) : (commit s).t.stepArmed = s.t.stepArmed := rfl
@[simp] theorem withWord_t_stepDue (s : State) (v : W64) : (withWord s v).t.stepDue = s.t.stepDue := rfl
@[simp] theorem commit_t_stepDue (s : State) : (commit s).t.stepDue = s.t.stepDue := rfl
@[simp] theorem withWord_t_epoch (s : State) (v : W64) : (withWord s v).t.epoch = s.t.epoch := rfl
@[simp] theorem commit_t_epoch (s : State) : (commit s).t.epoch = s.t.epoch := rfl
@[simp] theorem withWord_t_wcb (s : State) (v : W64) : (withWord s v).t.wcb = s.t.wcb := rfl
@[simp] theorem commit_t_wcb (s : State) : (commit s).t.wcb = s.t.wcb := rfl
@[simp] theorem withWord_t_noRollback (s : State) (v : W64) : (withWord s v).t.noRollback = s.t.noRollback := rfl
@[simp] theorem withWord_t_away (s : State) (v : W64) : (withWord s v).t.away = s.t.away := rfl
@[simp] theorem commit_t_away (s : State) : (commit s).t.away = s.t.away := rfl
@[simp] theorem withWord_t_discard (s : State) (v : W64) : (withWord s v).t.discard = s.t.discard := rfl
@[simp] theorem withWord_t_pendAt (s : State) (v : W64) : (withWord s v).t.pendAt = s.t.pendAt := rfl
@[simp] theorem withWord_t_stripAge (s : State) (v : W64) : (withWord s v).t.stripAge = s.t.stripAge := rfl
@[simp] theorem commit_t_discard (s : State) : (commit s).t.discard = s.t.discard := rfl
@[simp] theorem commit_t_pendAt (s : State) : (commit s).t.pendAt = s.t.pendAt := rfl
@[simp] theorem commit_t_stripAge (s : State) : (commit s).t.stripAge = s.t.stripAge := rfl
@[simp] theorem withWord_t_iword (s : State) (v : W64) : (withWord s v).t.iword = v := rfl
@[simp] theorem commit_t_iword (s : State) : (commit s).t.iword = s.t.iword := rfl
@[simp] theorem commit_t_performing (s : State) :
    (commit s).t.performing = s.t.performing ++ stripEffects s := rfl
@[simp] theorem commit_t_strip (s : State) : (commit s).t.strip = .empty 1 := rfl
@[simp] theorem commit_t_noRollback (s : State) : (commit s).t.noRollback = false := rfl

/-- What a completed step leaves of the thread. -/
theorem stepped_eq (t : Thread) :
    stepped t = { t with stepArmed := false, stepDue := t.stepDue || t.stepArmed, wait := .none } := by
  cases t with
  | mk => simp only [stepped]; split <;> simp_all

@[simp] theorem stepped_live (t : Thread) : (stepped t).live = t.live := by rw [stepped_eq]
@[simp] theorem stepped_slot (t : Thread) : (stepped t).slot = t.slot := by rw [stepped_eq]
@[simp] theorem stepped_mode (t : Thread) : (stepped t).mode = t.mode := by rw [stepped_eq]
@[simp] theorem stepped_arch (t : Thread) : (stepped t).arch = t.arch := by rw [stepped_eq]
@[simp] theorem stepped_ckpt (t : Thread) : (stepped t).ckpt = t.ckpt := by rw [stepped_eq]
@[simp] theorem stepped_strip (t : Thread) : (stepped t).strip = t.strip := by rw [stepped_eq]
@[simp] theorem stepped_performing (t : Thread) : (stepped t).performing = t.performing := by rw [stepped_eq]
@[simp] theorem stepped_spc (t : Thread) : (stepped t).spc = t.spc := by rw [stepped_eq]
@[simp] theorem stepped_sfi (t : Thread) : (stepped t).sfi = t.sfi := by rw [stepped_eq]
@[simp] theorem stepped_tvec (t : Thread) : (stepped t).tvec = t.tvec := by rw [stepped_eq]
@[simp] theorem stepped_tstat (t : Thread) : (stepped t).tstat = t.tstat := by rw [stepped_eq]
@[simp] theorem stepped_tpc (t : Thread) : (stepped t).tpc = t.tpc := by rw [stepped_eq]
@[simp] theorem stepped_tcause (t : Thread) : (stepped t).tcause = t.tcause := by rw [stepped_eq]
@[simp] theorem stepped_tval (t : Thread) : (stepped t).tval = t.tval := by rw [stepped_eq]
@[simp] theorem stepped_telem (t : Thread) : (stepped t).telem = t.telem := by rw [stepped_eq]
@[simp] theorem stepped_tscr0 (t : Thread) : (stepped t).tscr0 = t.tscr0 := by rw [stepped_eq]
@[simp] theorem stepped_tscr1 (t : Thread) : (stepped t).tscr1 = t.tscr1 := by rw [stepped_eq]
@[simp] theorem stepped_dict (t : Thread) : (stepped t).dict = t.dict := by rw [stepped_eq]
@[simp] theorem stepped_dictLoading (t : Thread) : (stepped t).dictLoading = t.dictLoading := by rw [stepped_eq]
@[simp] theorem stepped_dictPending (t : Thread) : (stepped t).dictPending = t.dictPending := by rw [stepped_eq]
@[simp] theorem stepped_image (t : Thread) : (stepped t).image = t.image := by rw [stepped_eq]
@[simp] theorem stepped_own (t : Thread) : (stepped t).own = t.own := by rw [stepped_eq]
@[simp] theorem stepped_pend (t : Thread) : (stepped t).pend = t.pend := by rw [stepped_eq]
@[simp] theorem stepped_dem (t : Thread) : (stepped t).dem = t.dem := by rw [stepped_eq]
@[simp] theorem stepped_lanes (t : Thread) : (stepped t).lanes = t.lanes := by rw [stepped_eq]
@[simp] theorem stepped_poolNeed (t : Thread) : (stepped t).poolNeed = t.poolNeed := by rw [stepped_eq]
@[simp] theorem stepped_ttol (t : Thread) : (stepped t).ttol = t.ttol := by rw [stepped_eq]
@[simp] theorem stepped_tsweep (t : Thread) : (stepped t).tsweep = t.tsweep := by rw [stepped_eq]
@[simp] theorem stepped_tmode (t : Thread) : (stepped t).tmode = t.tmode := by rw [stepped_eq]
@[simp] theorem stepped_tileNeed (t : Thread) : (stepped t).tileNeed = t.tileNeed := by rw [stepped_eq]
@[simp] theorem stepped_vpHeld (t : Thread) : (stepped t).vpHeld = t.vpHeld := by rw [stepped_eq]
@[simp] theorem stepped_epoch (t : Thread) : (stepped t).epoch = t.epoch := by rw [stepped_eq]
@[simp] theorem stepped_wcb (t : Thread) : (stepped t).wcb = t.wcb := by rw [stepped_eq]
@[simp] theorem stepped_noRollback (t : Thread) : (stepped t).noRollback = t.noRollback := by rw [stepped_eq]
@[simp] theorem stepped_away (t : Thread) : (stepped t).away = t.away := by rw [stepped_eq]
@[simp] theorem stepped_discard (t : Thread) : (stepped t).discard = t.discard := by rw [stepped_eq]
@[simp] theorem stepped_pendAt (t : Thread) : (stepped t).pendAt = t.pendAt := by rw [stepped_eq]
@[simp] theorem stepped_stripAge (t : Thread) : (stepped t).stripAge = t.stripAge := by rw [stepped_eq]
@[simp] theorem stepped_iword (t : Thread) : (stepped t).iword = t.iword := by rw [stepped_eq]
@[simp] theorem stepped_wait (t : Thread) : (stepped t).wait = .none := by rw [stepped_eq]
@[simp] theorem stepped_stepArmed (t : Thread) : (stepped t).stepArmed = false := by rw [stepped_eq]
@[simp] theorem complete_t (s : State) : (complete s).t = stepped s.t := rfl

/-- Replacing the registers commutes with the end of a step. -/
theorem stepped_withArch (t : Thread) (a : Arch) : stepped { t with arch := a } = { stepped t with arch := a } := by
  rw [stepped_eq, stepped_eq]

theorem openStrip_t (s : State) (n : Nat) :
    (openStrip s n).t = { s.t with ckpt := s.t.arch, strip := .empty n, stripAge := 0, spc := match s.t.mode with
      | .user => s.t.arch.pc
      | .super => s.t.spc } := by
  simp only [openStrip]; split <;> simp_all

@[simp] theorem openStrip_t_live (s : State) (n : Nat) : (openStrip s n).t.live = s.t.live := by rw [openStrip_t]
@[simp] theorem openStrip_t_slot (s : State) (n : Nat) : (openStrip s n).t.slot = s.t.slot := by rw [openStrip_t]
@[simp] theorem openStrip_t_mode (s : State) (n : Nat) : (openStrip s n).t.mode = s.t.mode := by rw [openStrip_t]
@[simp] theorem openStrip_t_arch (s : State) (n : Nat) : (openStrip s n).t.arch = s.t.arch := by rw [openStrip_t]
@[simp] theorem openStrip_t_performing (s : State) (n : Nat) : (openStrip s n).t.performing = s.t.performing := by rw [openStrip_t]
@[simp] theorem openStrip_t_sfi (s : State) (n : Nat) : (openStrip s n).t.sfi = s.t.sfi := by rw [openStrip_t]
@[simp] theorem openStrip_t_tvec (s : State) (n : Nat) : (openStrip s n).t.tvec = s.t.tvec := by rw [openStrip_t]
@[simp] theorem openStrip_t_tstat (s : State) (n : Nat) : (openStrip s n).t.tstat = s.t.tstat := by rw [openStrip_t]
@[simp] theorem openStrip_t_tpc (s : State) (n : Nat) : (openStrip s n).t.tpc = s.t.tpc := by rw [openStrip_t]
@[simp] theorem openStrip_t_tcause (s : State) (n : Nat) : (openStrip s n).t.tcause = s.t.tcause := by rw [openStrip_t]
@[simp] theorem openStrip_t_tval (s : State) (n : Nat) : (openStrip s n).t.tval = s.t.tval := by rw [openStrip_t]
@[simp] theorem openStrip_t_telem (s : State) (n : Nat) : (openStrip s n).t.telem = s.t.telem := by rw [openStrip_t]
@[simp] theorem openStrip_t_tscr0 (s : State) (n : Nat) : (openStrip s n).t.tscr0 = s.t.tscr0 := by rw [openStrip_t]
@[simp] theorem openStrip_t_tscr1 (s : State) (n : Nat) : (openStrip s n).t.tscr1 = s.t.tscr1 := by rw [openStrip_t]
@[simp] theorem openStrip_t_dict (s : State) (n : Nat) : (openStrip s n).t.dict = s.t.dict := by rw [openStrip_t]
@[simp] theorem openStrip_t_dictLoading (s : State) (n : Nat) : (openStrip s n).t.dictLoading = s.t.dictLoading := by rw [openStrip_t]
@[simp] theorem openStrip_t_dictPending (s : State) (n : Nat) : (openStrip s n).t.dictPending = s.t.dictPending := by rw [openStrip_t]
@[simp] theorem openStrip_t_image (s : State) (n : Nat) : (openStrip s n).t.image = s.t.image := by rw [openStrip_t]
@[simp] theorem openStrip_t_own (s : State) (n : Nat) : (openStrip s n).t.own = s.t.own := by rw [openStrip_t]
@[simp] theorem openStrip_t_pend (s : State) (n : Nat) : (openStrip s n).t.pend = s.t.pend := by rw [openStrip_t]
@[simp] theorem openStrip_t_dem (s : State) (n : Nat) : (openStrip s n).t.dem = s.t.dem := by rw [openStrip_t]
@[simp] theorem openStrip_t_lanes (s : State) (n : Nat) : (openStrip s n).t.lanes = s.t.lanes := by rw [openStrip_t]
@[simp] theorem openStrip_t_poolNeed (s : State) (n : Nat) : (openStrip s n).t.poolNeed = s.t.poolNeed := by rw [openStrip_t]
@[simp] theorem openStrip_t_ttol (s : State) (n : Nat) : (openStrip s n).t.ttol = s.t.ttol := by rw [openStrip_t]
@[simp] theorem openStrip_t_tsweep (s : State) (n : Nat) : (openStrip s n).t.tsweep = s.t.tsweep := by rw [openStrip_t]
@[simp] theorem openStrip_t_tmode (s : State) (n : Nat) : (openStrip s n).t.tmode = s.t.tmode := by rw [openStrip_t]
@[simp] theorem openStrip_t_tileNeed (s : State) (n : Nat) : (openStrip s n).t.tileNeed = s.t.tileNeed := by rw [openStrip_t]
@[simp] theorem openStrip_t_wait (s : State) (n : Nat) : (openStrip s n).t.wait = s.t.wait := by rw [openStrip_t]
@[simp] theorem openStrip_t_vpHeld (s : State) (n : Nat) : (openStrip s n).t.vpHeld = s.t.vpHeld := by rw [openStrip_t]
@[simp] theorem openStrip_t_stepArmed (s : State) (n : Nat) : (openStrip s n).t.stepArmed = s.t.stepArmed := by rw [openStrip_t]
@[simp] theorem openStrip_t_stepDue (s : State) (n : Nat) : (openStrip s n).t.stepDue = s.t.stepDue := by rw [openStrip_t]
@[simp] theorem openStrip_t_epoch (s : State) (n : Nat) : (openStrip s n).t.epoch = s.t.epoch := by rw [openStrip_t]
@[simp] theorem openStrip_t_wcb (s : State) (n : Nat) : (openStrip s n).t.wcb = s.t.wcb := by rw [openStrip_t]
@[simp] theorem openStrip_t_noRollback (s : State) (n : Nat) : (openStrip s n).t.noRollback = s.t.noRollback := by rw [openStrip_t]
@[simp] theorem openStrip_t_away (s : State) (n : Nat) : (openStrip s n).t.away = s.t.away := by rw [openStrip_t]
@[simp] theorem openStrip_t_discard (s : State) (n : Nat) : (openStrip s n).t.discard = s.t.discard := by rw [openStrip_t]
@[simp] theorem openStrip_t_pendAt (s : State) (n : Nat) : (openStrip s n).t.pendAt = s.t.pendAt := by rw [openStrip_t]
@[simp] theorem openStrip_t_stripAge (s : State) (n : Nat) : (openStrip s n).t.stripAge = 0 := by rw [openStrip_t]
@[simp] theorem openStrip_t_iword (s : State) (n : Nat) : (openStrip s n).t.iword = s.t.iword := by rw [openStrip_t]
@[simp] theorem openStrip_t_ckpt (s : State) (n : Nat) : (openStrip s n).t.ckpt = s.t.arch := by rw [openStrip_t]
@[simp] theorem openStrip_t_strip (s : State) (n : Nat) : (openStrip s n).t.strip = .empty n := by rw [openStrip_t]

/-! ### Partitions -/

@[simp] theorem setPart_t (s : State) (n : Nat) (p : PartState) : (setPart s n p).t = s.t := by
  unfold setPart; split <;> rfl
@[simp] theorem setPart_u (s : State) (n : Nat) (p : PartState) : (setPart s n p).u = s.u := by
  unfold setPart; split <;> rfl
@[simp] theorem setPart_units (s : State) (n : Nat) (p : PartState) : (setPart s n p).units = s.units := by
  unfold setPart; split <;> rfl
@[simp] theorem setPart_ports (s : State) (n : Nat) (p : PartState) : (setPart s n p).ports = s.ports := by
  unfold setPart; split <;> rfl
@[simp] theorem setPart_cccfg (s : State) (n : Nat) (p : PartState) : (setPart s n p).cccfg = s.cccfg := by
  unfold setPart; split <;> rfl
@[simp] theorem setPart_mem (s : State) (n : Nat) (p : PartState) : (setPart s n p).mem = s.mem := by
  unfold setPart; split <;> rfl
@[simp] theorem setPart_poison (s : State) (n : Nat) (p : PartState) : (setPart s n p).poison = s.poison := by
  unfold setPart; split <;> rfl
@[simp] theorem setPart_guards (s : State) (n : Nat) (p : PartState) : (setPart s n p).guards = s.guards := by
  unfold setPart; split <;> rfl
@[simp] theorem setPart_frameErrors (s : State) (n : Nat) (p : PartState) : (setPart s n p).frameErrors = s.frameErrors := by
  unfold setPart; split <;> rfl
@[simp] theorem setPart_laneErrors (s : State) (n : Nat) (p : PartState) : (setPart s n p).laneErrors = s.laneErrors := by
  unfold setPart; split <;> rfl
@[simp] theorem setPart_dies (s : State) (n : Nat) (p : PartState) : (setPart s n p).dies = s.dies := by
  unfold setPart; split <;> rfl
@[simp] theorem setPart_ioMap (s : State) (n : Nat) (p : PartState) : (setPart s n p).ioMap = s.ioMap := by
  unfold setPart; split <;> rfl
@[simp] theorem setPart_boot (s : State) (n : Nat) (p : PartState) : (setPart s n p).boot = s.boot := by
  unfold setPart; split <;> rfl
@[simp] theorem setPart_powered (s : State) (n : Nat) (p : PartState) : (setPart s n p).powered = s.powered := by
  unfold setPart; split <;> rfl
@[simp] theorem setPart_stage (s : State) (n : Nat) (p : PartState) : (setPart s n p).stage = s.stage := by
  unfold setPart; split <;> rfl
@[simp] theorem setPart_image (s : State) (n : Nat) (p : PartState) : (setPart s n p).image = s.image := by
  unfold setPart; split <;> rfl
@[simp] theorem setPart_bootFail (s : State) (n : Nat) (p : PartState) : (setPart s n p).bootFail = s.bootFail := by
  unfold setPart; split <;> rfl
@[simp] theorem setPart_capptr (s : State) (n : Nat) (p : PartState) : (setPart s n p).capptr = s.capptr := by
  unfold setPart; split <;> rfl
@[simp] theorem setPart_config (s : State) (n : Nat) (p : PartState) : (setPart s n p).config = s.config := by
  unfold setPart; split <;> rfl
@[simp] theorem setPart_flash (s : State) (n : Nat) (p : PartState) : (setPart s n p).flash = s.flash := by
  unfold setPart; split <;> rfl
@[simp] theorem setPart_fuseKey (s : State) (n : Nat) (p : PartState) : (setPart s n p).fuseKey = s.fuseKey := by
  unfold setPart; split <;> rfl
@[simp] theorem setPart_mapp (s : State) (n : Nat) (p : PartState) : (setPart s n p).mapp = s.mapp := by
  unfold setPart; split <;> rfl
@[simp] theorem setPart_mcomp (s : State) (n : Nat) (p : PartState) : (setPart s n p).mcomp = s.mcomp := by
  unfold setPart; split <;> rfl
@[simp] theorem setPart_mran (s : State) (n : Nat) (p : PartState) : (setPart s n p).mran = s.mran := by
  unfold setPart; split <;> rfl
@[simp] theorem setPart_attSeq (s : State) (n : Nat) (p : PartState) : (setPart s n p).attSeq = s.attSeq := by
  unfold setPart; split <;> rfl
@[simp] theorem setPart_reports (s : State) (n : Nat) (p : PartState) : (setPart s n p).reports = s.reports := by
  unfold setPart; split <;> rfl
@[simp] theorem setPart_doorbells (s : State) (n : Nat) (p : PartState) : (setPart s n p).doorbells = s.doorbells := by
  unfold setPart; split <;> rfl
@[simp] theorem setPart_time (s : State) (n : Nat) (p : PartState) : (setPart s n p).time = s.time := by
  unfold setPart; split <;> rfl
@[simp] theorem setPart_nextUid (s : State) (n : Nat) (p : PartState) : (setPart s n p).nextUid = s.nextUid := by
  unfold setPart; split <;> rfl
@[simp] theorem setPart_freeCtr (s : State) (n : Nat) (p : PartState) : (setPart s n p).freeCtr = s.freeCtr := by
  unfold setPart; split <;> rfl
@[simp] theorem setPart_agenda (s : State) (n : Nat) (p : PartState) : (setPart s n p).agenda = s.agenda := by
  unfold setPart; split <;> rfl
@[simp] theorem mapPart_t (s : State) (n : Nat) (g : PartState → PartState) : (mapPart s n g).t = s.t := by
  simp [mapPart]
@[simp] theorem mapPart_u (s : State) (n : Nat) (g : PartState → PartState) : (mapPart s n g).u = s.u := by
  simp [mapPart]
@[simp] theorem mapPart_units (s : State) (n : Nat) (g : PartState → PartState) : (mapPart s n g).units = s.units := by
  simp [mapPart]
@[simp] theorem mapPart_ports (s : State) (n : Nat) (g : PartState → PartState) : (mapPart s n g).ports = s.ports := by
  simp [mapPart]
@[simp] theorem mapPart_cccfg (s : State) (n : Nat) (g : PartState → PartState) : (mapPart s n g).cccfg = s.cccfg := by
  simp [mapPart]
@[simp] theorem mapPart_mem (s : State) (n : Nat) (g : PartState → PartState) : (mapPart s n g).mem = s.mem := by
  simp [mapPart]
@[simp] theorem mapPart_poison (s : State) (n : Nat) (g : PartState → PartState) : (mapPart s n g).poison = s.poison := by
  simp [mapPart]
@[simp] theorem mapPart_guards (s : State) (n : Nat) (g : PartState → PartState) : (mapPart s n g).guards = s.guards := by
  simp [mapPart]
@[simp] theorem mapPart_frameErrors (s : State) (n : Nat) (g : PartState → PartState) : (mapPart s n g).frameErrors = s.frameErrors := by
  simp [mapPart]
@[simp] theorem mapPart_laneErrors (s : State) (n : Nat) (g : PartState → PartState) : (mapPart s n g).laneErrors = s.laneErrors := by
  simp [mapPart]
@[simp] theorem mapPart_dies (s : State) (n : Nat) (g : PartState → PartState) : (mapPart s n g).dies = s.dies := by
  simp [mapPart]
@[simp] theorem mapPart_ioMap (s : State) (n : Nat) (g : PartState → PartState) : (mapPart s n g).ioMap = s.ioMap := by
  simp [mapPart]
@[simp] theorem mapPart_boot (s : State) (n : Nat) (g : PartState → PartState) : (mapPart s n g).boot = s.boot := by
  simp [mapPart]
@[simp] theorem mapPart_powered (s : State) (n : Nat) (g : PartState → PartState) : (mapPart s n g).powered = s.powered := by
  simp [mapPart]
@[simp] theorem mapPart_stage (s : State) (n : Nat) (g : PartState → PartState) : (mapPart s n g).stage = s.stage := by
  simp [mapPart]
@[simp] theorem mapPart_image (s : State) (n : Nat) (g : PartState → PartState) : (mapPart s n g).image = s.image := by
  simp [mapPart]
@[simp] theorem mapPart_bootFail (s : State) (n : Nat) (g : PartState → PartState) : (mapPart s n g).bootFail = s.bootFail := by
  simp [mapPart]
@[simp] theorem mapPart_capptr (s : State) (n : Nat) (g : PartState → PartState) : (mapPart s n g).capptr = s.capptr := by
  simp [mapPart]
@[simp] theorem mapPart_config (s : State) (n : Nat) (g : PartState → PartState) : (mapPart s n g).config = s.config := by
  simp [mapPart]
@[simp] theorem mapPart_flash (s : State) (n : Nat) (g : PartState → PartState) : (mapPart s n g).flash = s.flash := by
  simp [mapPart]
@[simp] theorem mapPart_fuseKey (s : State) (n : Nat) (g : PartState → PartState) : (mapPart s n g).fuseKey = s.fuseKey := by
  simp [mapPart]
@[simp] theorem mapPart_mapp (s : State) (n : Nat) (g : PartState → PartState) : (mapPart s n g).mapp = s.mapp := by
  simp [mapPart]
@[simp] theorem mapPart_mcomp (s : State) (n : Nat) (g : PartState → PartState) : (mapPart s n g).mcomp = s.mcomp := by
  simp [mapPart]
@[simp] theorem mapPart_mran (s : State) (n : Nat) (g : PartState → PartState) : (mapPart s n g).mran = s.mran := by
  simp [mapPart]
@[simp] theorem mapPart_attSeq (s : State) (n : Nat) (g : PartState → PartState) : (mapPart s n g).attSeq = s.attSeq := by
  simp [mapPart]
@[simp] theorem mapPart_reports (s : State) (n : Nat) (g : PartState → PartState) : (mapPart s n g).reports = s.reports := by
  simp [mapPart]
@[simp] theorem mapPart_doorbells (s : State) (n : Nat) (g : PartState → PartState) : (mapPart s n g).doorbells = s.doorbells := by
  simp [mapPart]
@[simp] theorem mapPart_time (s : State) (n : Nat) (g : PartState → PartState) : (mapPart s n g).time = s.time := by
  simp [mapPart]
@[simp] theorem mapPart_nextUid (s : State) (n : Nat) (g : PartState → PartState) : (mapPart s n g).nextUid = s.nextUid := by
  simp [mapPart]
@[simp] theorem mapPart_freeCtr (s : State) (n : Nat) (g : PartState → PartState) : (mapPart s n g).freeCtr = s.freeCtr := by
  simp [mapPart]
@[simp] theorem mapPart_agenda (s : State) (n : Nat) (g : PartState → PartState) : (mapPart s n g).agenda = s.agenda := by
  simp [mapPart]

@[simp] theorem getPart_setPart (s : State) (n : Nat) (p : PartState) (h : n < 4) : getPart (setPart s n p) n = p := by
  simp [getPart, setPart, h]

@[simp] theorem getPart_setPart_ne (s : State) (n m : Nat) (p : PartState) (h : m ≠ n) :
    getPart (setPart s n p) m = getPart s m := by
  unfold getPart setPart
  split
  · split
    · simp [Vector.getElem_set_ne _ _ (Ne.symm h)]
    · rfl
  · rfl

@[simp] theorem getPart_mapPart (s : State) (n : Nat) (g : PartState → PartState) (h : n < 4) :
    getPart (mapPart s n g) n = g (getPart s n) := by simp [mapPart, h]
@[simp] theorem getPart_mapPart_ne (s : State) (n m : Nat) (g : PartState → PartState) (h : m ≠ n) :
    getPart (mapPart s n g) m = getPart s m := by simp [mapPart, h]

/-- A job found by an id has that id. -/
@[simp] theorem getJob_id (p : PartState) (n : Nat) : (getJob p n).id = n := by
  unfold getJob
  split
  · next h => simpa using List.find?_some h
  · rfl

/-- What a list of jobs finds after one has been put into it. -/
theorem insertJob_find (j : Job) (n : Nat) : ∀ js : List Job,
    (insertJob j js).find? (fun x => x.id == n) = if n = j.id then some j else js.find? (fun x => x.id == n)
  | [] => by by_cases h : n = j.id
             · simp [insertJob, h]
             · simp [insertJob, h, Ne.symm h]
  | r :: rs => by
    unfold insertJob
    split
    · by_cases h : n = j.id
      · simp [h]
      · have : j.id ≠ n := Ne.symm h
        simp [h, this]
    split
    · next he =>
      by_cases h : n = j.id
      · simp [h]
      · have : j.id ≠ n := Ne.symm h
        simp [h, this, ← he]
    · next hl he =>
      rw [List.find?_cons, List.find?_cons, insertJob_find j n rs]
      by_cases h : n = j.id
      · have k : (r.id == j.id) = false := beq_eq_false_iff_ne.2 (Ne.symm he)
        simp [h, k]
      · simp [h]

/-- A job that has been put into a partition is found by its id, and every other job as before. -/
theorem getJob_setJob (p : PartState) (j : Job) (n : Nat) : getJob (setJob p j) n = if n = j.id then j else getJob p n := by
  simp only [getJob, setJob, insertJob_find]
  by_cases h : n = j.id <;> simp [h]

end Sys2Proof.Machine
end

