-- ==== Sys2Proof/Laws/Regs.lean ====
section
/-! SUPPORT. What the register operations, the checks and the end of an instruction can do: one lemma for each. -/

namespace Sys2Proof.Machine

open Sys2Proof

/-! ### Operations that touch the registers alone -/

/-- `setX` touches the registers alone. -/
theorem setX_eq (s : State) (r : Field) (v : W64) : setX s r v = withArch s (setX s r v).t.arch := by
  unfold setX; split
  · split <;> rfl
  · rfl

/-- `setX` touches the scalar registers alone. -/
theorem setX_arch (s : State) (r : Field) (v : W64) :
    (setX s r v).t.arch = { s.t.arch with x := (setX s r v).t.arch.x } := by
  unfold setX; split
  · split <;> rfl
  · rfl

/-- x0 reads zero, and a write to it or to a number above 63 is ignored (R85). -/
theorem getX_setX (s : State) (r : Field) (v : W64) (n : Field) :
    getX (setX s r v) n = if n = r ∧ n ≠ 0 ∧ n.toNat < 64 then v else getX s n := by
  by_cases hr : r.toNat < 64
  · by_cases h0 : r = 0
    · have e : setX s r v = s := by simp only [setX, dif_pos hr, if_pos h0]
      rw [e, if_neg]
      rintro ⟨h1, h2, -⟩
      exact h2 (h1.trans h0)
    · have e : setX s r v = withArch s { s.t.arch with x := s.t.arch.x.set r.toNat v hr } := by
        simp only [setX, dif_pos hr, if_neg h0]
      rw [e]
      by_cases en : n = r
      · subst en
        rw [if_pos ⟨rfl, h0, hr⟩]
        simp only [getX, dif_pos hr, if_neg h0, withArch_t_arch, Vector.getElem_set_self]
      · have ne : r.toNat ≠ n.toNat := fun h => en (BitVec.eq_of_toNat_eq h.symm)
        rw [if_neg (fun h => en h.1)]
        by_cases hn : n.toNat < 64
        · simp only [getX, dif_pos hn, withArch_t_arch, Vector.getElem_set_ne hr hn ne]
        · simp only [getX, dif_neg hn]
  · have e : setX s r v = s := by simp only [setX, dif_neg hr]
    rw [e, if_neg]
    rintro ⟨h1, -, h2⟩
    exact hr (h1 ▸ h2)

theorem goTo_eq (s : State) (pc : W64) : goTo s pc = withArch s (goTo s pc).t.arch := rfl

/-- Where a group moves to depends on the divergence state alone. -/
theorem movedVp_congr {s s' : State} (h : s'.t.arch.vp = s.t.arch.vp) (pc : W64) : movedVp s' pc = movedVp s pc := by
  rw [movedVp, movedVp, h]

/-- `goTo` moves the PC, and inside a VP block the running group (R125). -/
theorem goTo_arch (s : State) (pc : W64) : (goTo s pc).t.arch = { s.t.arch with pc := pc, vp := movedVp s pc } := by
  simp only [goTo, withArch_t_arch, movedVp]; split <;> simp_all

theorem nextPc_eq (s : State) : nextPc s = withArch s (nextPc s).t.arch := rfl

/-- `nextPc` moves the PC to the next word. -/
theorem nextPc_arch (s : State) :
    (nextPc s).t.arch = { s.t.arch with pc := s.t.arch.pc + 4, vp := nextVp s } := goTo_arch s _

theorem countRsr_eq (code : Nat) (s : State) : countRsr code s = withArch s (countRsr code s).t.arch := by
  unfold countRsr; split <;> rfl

/-- `countRsr` touches the rounding ordinal alone. -/
theorem countRsr_arch (code : Nat) (s : State) :
    (countRsr code s).t.arch = { s.t.arch with ordinal := ordAfter s (code == 5) } := by
  unfold countRsr ordAfter; split <;> simp_all

/-- The scalar registers are read from the checkpointed ones. -/
theorem getX_withArch (s : State) (a : Arch) (h : a.x = s.t.arch.x) (n : Field) : getX (withArch s a) n = getX s n := by
  simp [getX, h]

@[simp] theorem getX_goTo (s : State) (pc : W64) (n : Field) : getX (goTo s pc) n = getX s n := by
  rw [goTo_eq, getX_withArch _ _ (by rw [goTo_arch])]

@[simp] theorem getX_nextPc (s : State) (n : Field) : getX (nextPc s) n = getX s n := getX_goTo s _ n

@[simp] theorem getX_countRsr (code : Nat) (s : State) (n : Field) : getX (countRsr code s) n = getX s n := by
  rw [countRsr_eq, getX_withArch _ _ (by rw [countRsr_arch])]

@[simp] theorem getX_complete (s : State) (n : Field) : getX (complete s) n = getX s n := by
  simp [getX]

/-! ### What an instruction that touches the registers alone leaves -/

/-- Memory reads the same whatever the registers hold. -/
theorem sameMemory_withArch (s : State) (a : Arch) : SameMemory s (complete (withArch s a)) := by
  intro l
  simp [viewByte]
  rfl

/-- An instruction that replaces the registers and is then over. -/
theorem onlyArch_withArch (s : State) (a : Arch) : OnlyArch s (complete (withArch s a)) := by
  refine ⟨?_, sameMemory_withArch s a⟩
  simp only [complete, withArch, stepped_withArch]

/-! ### Checks and ends -/

/-- A form that passes its checks runs its body. -/
theorem runForm_able {opc : Nat} {f : Form} {s : State} (h : Able opc f s) (body : State → Res) :
    runForm opc f s body = finish (body s) := by
  obtain ⟨hr, hc⟩ := h
  simp only [running, Bool.and_eq_true, Bool.not_eq_true', beq_iff_eq] at hr
  obtain ⟨⟨⟨hp, hs⟩, hb⟩, hl⟩ := hr
  simp [runForm, hp, hs, hb, hl, hc]

/-- A form that fails a check takes that check's trap. -/
theorem runForm_checked {opc : Nat} {f : Form} {s : State} (hr : running s = true) {r : Res}
    (hc : checkForm opc f s = some r) (body : State → Res) : runForm opc f s body = finish r := by
  simp only [running, Bool.and_eq_true, Bool.not_eq_true', beq_iff_eq] at hr
  obtain ⟨⟨⟨hp, hs⟩, hb⟩, hl⟩ := hr
  simp [runForm, hp, hs, hb, hl, hc]

@[simp] theorem finish_done (s : State) : finish (.done s) = .next (complete s) := rfl

/-- An instruction that does not move the registers to another place than the next word, and writes X[d]. -/
theorem writeX_holds {i : Instr} {d : Field} {s : State} {v : W64} {pc : W64} {code : Bool} {t0 : State}
    (h : exec i s = .next (complete (goTo (setX t0 d v) pc)))
    (h0 : t0 = withArch s { s.t.arch with ordinal := ordAfter s code }) :
    ∃ t, exec i s = .next t ∧ OnlyArch s t ∧ OnlyX s t pc (ordAfter s code) ∧
      ∀ n : Field, getX t n = if n = d ∧ n ≠ 0 ∧ n.toNat < 64 then v else getX s n := by
  refine ⟨_, h, ?_, ?_, ?_⟩
  · rw [goTo_eq, setX_eq, h0, withArch_withArch, withArch_withArch]
    exact onlyArch_withArch s _
  · simp only [OnlyX, complete_t, stepped_arch]
    rw [goTo_arch, movedVp_congr (s := s) (by rw [setX_arch, h0]; simp), setX_arch, h0]; simp
  · intro n
    rw [getX_complete, getX_goTo, getX_setX, h0, getX_withArch]
    rfl

/-- The PC that `setX` leaves. -/
@[simp] theorem setX_pc (s : State) (r : Field) (v : W64) : (setX s r v).t.arch.pc = s.t.arch.pc := by rw [setX_arch]

/-- `writeX` ends in a write of X[d] and the move to the next word. -/
theorem finish_writeX (f : Form) (v : W64) (s : State) :
    finish (writeX f v s) = .next (complete (goTo (setX s f.d v) (s.t.arch.pc + 4))) := by
  simp only [writeX, finish_done, nextPc, setX_pc]

/-- An instruction whose body is one `writeX` meets its row. -/
theorem XRow.holds_of_writeX {r : XRow} (hn : r.next = fun _ s => s.t.arch.pc + 4) (hd : r.dest = fun f => f.d)
    (hc : r.counts = fun _ _ => false)
    (h : ∀ f s, Able r.opc f s → r.can f s → exec (r.instr f) s = finish (writeX f (r.value f s) s)) : r.Holds := by
  intro f s ha hcan
  rw [hn, hd, hc]
  exact writeX_holds (t0 := s) (by rw [h f s ha hcan, finish_writeX]) rfl

/-- An instruction whose body is one `writeX` after a counted rounding meets its row. -/
theorem XRow.holds_of_countRsr {r : XRow} (hn : r.next = fun _ s => s.t.arch.pc + 4) (hd : r.dest = fun f => f.d)
    (hc : r.counts = fun f s => modeCode f s == 5)
    (h : ∀ f s, Able r.opc f s → r.can f s →
      exec (r.instr f) s = finish (writeX f (r.value f s) (countRsr (modeCode f s) s))) : r.Holds := by
  intro f s ha hcan
  rw [hn, hd, hc]
  have hp : (countRsr (modeCode f s) s).t.arch.pc = s.t.arch.pc := by rw [countRsr_arch]
  refine writeX_holds (t0 := countRsr (modeCode f s) s) (by rw [h f s ha hcan, finish_writeX, hp]) ?_
  rw [countRsr_eq, countRsr_arch]

/-- An instruction that only moves the PC meets its row. -/
theorem XRow.holds_of_goTo {r : XRow} (hc : r.counts = fun _ _ => false)
    (h : ∀ f s, Able r.opc f s → r.can f s →
      exec (r.instr f) s = finish (.done (goTo (setX s (r.dest f) (r.value f s)) (r.next f s)))) : r.Holds := by
  intro f s ha hcan
  rw [hc]
  exact writeX_holds (t0 := s) (by rw [h f s ha hcan, finish_done]) rfl

/-- A write to x0 is ignored (R85). -/
@[simp] theorem setX_zero (s : State) (v : W64) : setX s 0 v = s := by simp [setX]

end Sys2Proof.Machine
end

