-- ==== Sys2Proof/Laws/Storage.lean ====
section
/-! SUPPORT. What the operations over bytes, predicates, channels, partitions, tiles and frames read back: one lemma for
each. -/

namespace Sys2Proof.Machine

open Sys2Proof

/-! ### Bytes of a store -/

@[simp] theorem rawByte_spoilLine (s : State) (l a : Nat) : rawByte (spoilLine s l) a = rawByte s a := by
  unfold spoilLine; split <;> rfl

@[simp] theorem rawByte_healLine (s : State) (l a : Nat) : rawByte (healLine s l) a = rawByte s a := rfl

@[simp] theorem rawByte_cacheWrite (s : State) (l a : Nat) (b : Byte) : rawByte (cacheWrite s l b) a = rawByte s a := by
  unfold cacheWrite; split <;> rfl

theorem spoilLine_mem (s : State) (l : Nat) : (spoilLine s l).mem = s.mem ∧ (spoilLine s l).u = s.u := by
  unfold spoilLine; split <;> exact ⟨rfl, rfl⟩

theorem cacheWrite_mem (s : State) (l : Nat) (b : Byte) :
    (cacheWrite s l b).mem = s.mem ∧ (cacheWrite s l b).u.csp = s.u.csp := by
  unfold cacheWrite; split <;> exact ⟨rfl, rfl⟩

/-- One byte of a store changes its own location alone, under its mask (R218). -/
theorem rawByte_performByte (s : State) (w : StoreByte) (a : Nat) (h : Memory.wf s.mem = true)
    (hc : Memory.wf s.u.csp = true) :
    rawByte (performByte s w) a = if a = w.loc then mergeByte (rawByte s w.loc) w.val w.mask else rawByte s a := by
  simp only [performByte, rawByte_cacheWrite]
  split
  · obtain ⟨e1, e2⟩ := spoilLine_mem s (w.loc / 64)
    rw [rawByte_rawWrite _ _ _ _ (e1 ▸ h) (e2 ▸ hc)]
    simp only [rawByte_spoilLine]
  · rw [rawByte_rawWrite _ _ _ _ h hc]

/-- One byte of a store keeps the canonical form of DRAM and of the scratchpad. -/
theorem performByte_wf (s : State) (w : StoreByte) (h : Memory.wf s.mem = true) (hc : Memory.wf s.u.csp = true) :
    Memory.wf (performByte s w).mem = true ∧ Memory.wf (performByte s w).u.csp = true := by
  simp only [performByte]
  rw [(cacheWrite_mem _ _ _).1, (cacheWrite_mem _ _ _).2]
  split
  · obtain ⟨e1, e2⟩ := spoilLine_mem s (w.loc / 64)
    exact rawWrite_wf _ _ _ (e1 ▸ h) (e2 ▸ hc)
  · exact rawWrite_wf _ _ _ h hc

/-- The bytes of an element keep the canonical form. -/
theorem performBytes_wf : ∀ (ws : List StoreByte) (s : State), Memory.wf s.mem = true → Memory.wf s.u.csp = true →
    Memory.wf (performBytes s ws).mem = true ∧ Memory.wf (performBytes s ws).u.csp = true
  | [], _, h, hc => ⟨h, hc⟩
  | w :: ws, s, h, hc => performBytes_wf ws _ (performByte_wf s w h hc).1 (performByte_wf s w h hc).2

/-- The bytes of an element change their own locations alone, in order. -/
theorem rawByte_performBytes (a : Nat) : ∀ (ws : List StoreByte) (s : State), Memory.wf s.mem = true →
    Memory.wf s.u.csp = true → rawByte (performBytes s ws) a = overlayBytes a ws (rawByte s a)
  | [], _, _, _ => rfl
  | w :: ws, s, h, hc => by
    have e := rawByte_performBytes a ws _ (performByte_wf s w h hc).1 (performByte_wf s w h hc).2
    rw [show performBytes s (w :: ws) = performBytes (performByte s w) ws from rfl, e, rawByte_performByte s w a h hc,
      overlayBytes]
    by_cases ha : a = w.loc
    · subst ha; simp
    · rw [if_neg ha, if_neg (Ne.symm ha)]

/-- What changed between two memories stands over a third, in canonical form. -/
theorem overlayChanges_spec (old new : List Host.Cell) {base : List Host.Cell} (h : Memory.wf base = true) :
    Memory.wf (overlayChanges old new base) = true ∧ ∀ c, Memory.read (overlayChanges old new base) c =
      if Memory.read old c = Memory.read new c then Memory.read base c else Memory.read new c := by
  refine ⟨(Memory.copy_spec new 0 _ h).1, fun c => (Memory.copy_spec new c _ h).2.trans ?_⟩
  by_cases e : Memory.read old c = Memory.read new c
  · rw [if_pos e, if_neg]
    simp [e]
  · rw [if_neg e, if_pos]
    rw [List.mem_filter]
    refine ⟨Classical.byContradiction fun hc => e ?_, by simpa using e⟩
    rw [List.mem_map] at hc
    rw [Memory.read_unlisted fun x hx hk => hc ⟨x, List.mem_append_left _ hx, hk⟩,
      Memory.read_unlisted fun x hx hk => hc ⟨x, List.mem_append_right _ hx, hk⟩]

/-! ### Predicates -/

/-- A write to a predicate is read back; p0 stays all-true and a write to it is ignored (R85). -/
theorem predBits_setPred (s : State) (n bits k : Nat) :
    predBits (setPred s n bits) k = if k = n ∧ n ≠ 0 ∧ n < 96 then bits else predBits s k := by
  unfold setPred
  by_cases hn : n < 96
  · by_cases h0 : n = 0
    · rw [dif_pos hn, if_pos h0, if_neg (fun h => h.2.1 h0)]
    · rw [dif_pos hn, if_neg h0]
      by_cases e : k = n
      · subst e
        rw [if_pos ⟨rfl, h0, hn⟩]
        simp only [predBits, if_neg h0, dif_pos hn, withArch_t_arch, Vector.getElem_set_self]
      · rw [if_neg (fun h => e h.1)]
        by_cases hk0 : k = 0
        · simp only [predBits, if_pos hk0]
        · by_cases hk : k < 96
          · simp only [predBits, if_neg hk0, dif_pos hk, withArch_t_arch, Vector.getElem_set_ne hn hk (Ne.symm e)]
          · simp only [predBits, if_neg hk0, dif_neg hk]
  · rw [dif_neg hn, if_neg (fun h => hn h.2.2)]

/-! ### Channels, partitions and tiles -/

/-- A channel is read back as written; a number above 15 names none. -/
theorem getChan_setChan (s : State) (ch k : Nat) (c : Chan) :
    getChan (setChan s ch c) k = if k = ch ∧ ch < 16 then c else getChan s k := by
  unfold setChan
  by_cases h : ch < 16
  · rw [dif_pos h]
    by_cases e : k = ch
    · subst e; rw [if_pos ⟨rfl, h⟩]; simp only [getChan, dif_pos h, Vector.getElem_set_self]
    · rw [if_neg (fun x => e x.1)]
      by_cases hk : k < 16
      · simp only [getChan, dif_pos hk, Vector.getElem_set_ne h hk (Ne.symm e)]
      · simp only [getChan, dif_neg hk]
  · rw [dif_neg h, if_neg (fun x => h x.2)]

/-- A port is read back as written. -/
theorem getPort_setPort (s : State) (n k : Nat) (d : Port) :
    getPort (setPort n d s) k = if k = n ∧ n < 16 then d else getPort s k := by
  unfold setPort
  by_cases h : n < 16
  · rw [dif_pos h]
    by_cases e : k = n
    · subst e; rw [if_pos ⟨rfl, h⟩]; simp only [getPort, dif_pos h, Vector.getElem_set_self]
    · rw [if_neg (fun x => e x.1)]
      by_cases hk : k < 16
      · simp only [getPort, dif_pos hk, Vector.getElem_set_ne h hk (Ne.symm e)]
      · simp only [getPort, dif_neg hk]
  · rw [dif_neg h, if_neg (fun x => h x.2)]

/-- A tile header is read back as written (R166). -/
theorem getHdr_setHdr (s : State) (n k : Nat) (d : TileHdr) :
    getHdr (setHdr s n d) k = if k = n ∧ n < 16 then d else getHdr s k := by
  unfold setHdr
  by_cases h : n < 16
  · rw [dif_pos h]
    by_cases e : k = n
    · subst e; rw [if_pos ⟨rfl, h⟩]; simp only [getHdr, dif_pos h, Vector.getElem_set_self]
    · rw [if_neg (fun x => e x.1)]
      by_cases hk : k < 16
      · simp only [getHdr, dif_pos hk, Vector.getElem_set_ne h hk (Ne.symm e)]
      · simp only [getHdr, dif_neg hk]
  · rw [dif_neg h, if_neg (fun x => h x.2)]

/-- A tile's contents are read back as written (R166). -/
theorem getTile_setTile (s : State) (n k : Nat) (d : TileBody) :
    getTile (setTile s n d) k = if k = n ∧ n < 16 then d else getTile s k := by
  unfold setTile
  by_cases h : n < 16
  · rw [dif_pos h]
    by_cases e : k = n
    · subst e; rw [if_pos ⟨rfl, h⟩]; simp only [getTile, dif_pos h, Vector.getElem_set_self]
    · rw [if_neg (fun x => e x.1)]
      by_cases hk : k < 16
      · simp only [getTile, dif_pos hk, Vector.getElem_set_ne h hk (Ne.symm e)]
      · simp only [getTile, dif_neg hk]
  · rw [dif_neg h, if_neg (fun x => h x.2)]

/-- The suspension of a copy timeline is read back as written (R233). -/
theorem getCsusp_setCsusp (s : State) (n k : Nat) (d : Option Suspend) :
    getCsusp (setCsusp s n d) k = if k = n ∧ n < 15 then d else getCsusp s k := by
  unfold setCsusp
  by_cases h : n < 15
  · rw [dif_pos h]
    by_cases e : k = n
    · subst e; rw [if_pos ⟨rfl, h⟩]; simp only [getCsusp, dif_pos h, Vector.getElem_set_self]
    · rw [if_neg (fun x => e x.1)]
      by_cases hk : k < 15
      · simp only [getCsusp, dif_pos hk, Vector.getElem_set_ne h hk (Ne.symm e)]
      · simp only [getCsusp, dif_neg hk]
  · rw [dif_neg h, if_neg (fun x => h x.2)]

/-- A stream register is read back as written (R224). -/
theorem getStream_setStream (s : State) (r k : Field) (d : Stream) :
    getStream (setStream s r d) k = if k = r ∧ k.toNat < 8 then d else getStream s k := by
  unfold setStream
  by_cases h : r.toNat < 8
  · rw [dif_pos h]
    by_cases e : k = r
    · subst e; rw [if_pos ⟨rfl, h⟩]; simp only [getStream, dif_pos h, withArch_t_arch, Vector.getElem_set_self]
    · rw [if_neg (fun x => e x.1)]
      have ne : r.toNat ≠ k.toNat := fun x => e (BitVec.eq_of_toNat_eq x.symm)
      by_cases hk : k.toNat < 8
      · simp only [getStream, dif_pos hk, withArch_t_arch, Vector.getElem_set_ne h hk ne]
      · simp only [getStream, dif_neg hk]
  · rw [dif_neg h, if_neg (by rintro ⟨rfl, x⟩; exact h x)]

/-- `setFn` replaces one function register of the checkpointed registers. -/
theorem setFn_arch (s : State) (r : Field) (d : FnReg) : (setFn s r d).t.arch =
    if h : r.toNat < 16 then { s.t.arch with fn := s.t.arch.fn.set r.toNat d h } else s.t.arch := by
  simp only [setFn]
  split
  · rw [apply_ite (fun x : State => x.t.arch)]
    exact ite_self _
  · rfl

/-- A function register is read back as written (R129). -/
theorem getFn_setFn (s : State) (r k : Field) (d : FnReg) :
    getFn (setFn s r d) k = if k = r ∧ k.toNat < 16 then d else getFn s k := by
  simp only [getFn, setFn_arch]
  by_cases h : r.toNat < 16
  · simp only [dif_pos h]
    by_cases e : k = r
    · subst e; simp only [dif_pos h, Vector.getElem_set_self]; simp [h]
    · rw [if_neg (fun x => e x.1)]
      have ne : r.toNat ≠ k.toNat := fun x => e (BitVec.eq_of_toNat_eq x.symm)
      by_cases hk : k.toNat < 16
      · simp only [dif_pos hk, Vector.getElem_set_ne h hk ne]
      · simp only [dif_neg hk]
  · rw [if_neg (by rintro ⟨rfl, x⟩; exact h x)]
    simp only [dif_neg h]

/-- A change of a partition touches the partitions alone. -/
theorem setPart_eq (s : State) (n : Nat) (p : PartState) : setPart s n p = { s with parts := (setPart s n p).parts } := by
  unfold setPart; split <;> rfl

/-! ### Areas of frames -/

/-- The cells of an area add up. -/
theorem areaValue_cons (k : Nat) (v : Byte) (m : List Host.Cell) (base n : Nat) :
    areaValue ((k, v) :: m) base n =
      (if base ≤ k ∧ k < base + n then v.toNat * 256 ^ (k - base) else 0) + areaValue m base n := by
  have h (f : Host.Cell → Nat) (p : Host.Cell → Prop) [DecidablePred p] : ∀ (l : List Host.Cell) (acc : Nat),
      l.foldl (fun acc c => if p c then acc + f c else acc) acc
        = acc + l.foldl (fun acc c => if p c then acc + f c else acc) 0 := by
    intro l
    induction l with
    | nil => intro acc; rfl
    | cons c l ih => intro acc; rw [List.foldl_cons, List.foldl_cons, ih, ih (if p c then 0 + f c else 0)]; split <;> omega
  unfold areaValue
  rw [List.foldl_cons, h]
  split <;> simp only [Nat.zero_add]

/-- The first byte of an area, and the area behind it. -/
theorem areaValue_succ : ∀ {m lo}, Memory.wfFrom lo m = true → ∀ base n,
    areaValue m base (n + 1) = (Memory.read m base).toNat + 256 * areaValue m (base + 1) n
  | [], _, _, _, _ => rfl
  | (k, v) :: m, lo, w, base, n => by
    simp only [Memory.wfFrom, Bool.and_eq_true, decide_eq_true_eq] at w
    rw [areaValue_cons, areaValue_cons, areaValue_succ w.2, Memory.read]
    by_cases e : k = base
    · subst e
      rw [Memory.read_below w.2 (by omega), if_pos (by omega), if_pos rfl, if_neg (by omega)]
      simp
    · rw [if_neg e]
      by_cases h : base ≤ k ∧ k < base + (n + 1)
      · rw [if_pos h, if_pos (by omega), show k - base = (k - (base + 1)) + 1 by omega, Nat.pow_succ, ← Nat.mul_assoc]
        omega
      · rw [if_neg h, if_neg (by omega)]; omega

/-- An area of no byte is 0. -/
theorem areaValue_zero (base : Nat) : ∀ m : List Host.Cell, areaValue m base 0 = 0
  | [] => rfl
  | (k, v) :: m => by rw [areaValue_cons, if_neg (by omega), areaValue_zero base m]

/-- An area of a frame reads as the little-endian value of its bytes. -/
theorem areaValue_eq {m : List Host.Cell} (h : Memory.wf m = true) : ∀ n base,
    areaValue m base n = leValue (Memory.readN m base n)
  | 0, base => areaValue_zero base m
  | n + 1, base => by
    rw [areaValue_succ h, areaValue_eq h n, Memory.readN, Memory.readN, List.range_succ_eq_map]
    simp [leValue, Function.comp_def, Nat.add_assoc, Nat.add_comm 1]

end Sys2Proof.Machine
end

