-- ==== Sys2Proof/Laws/Traps.lean ====
section
/-! SUPPORT. What taking a trap, a commit and the opening of a strip can do: one lemma for each. -/

namespace Sys2Proof.Machine

open Sys2Proof

/-- A trap of kind R is taken from the checkpoint, with the strip discarded (R329). -/
theorem takeTrap_R (s : State) (c : Cause) : RolledBack s (takeTrap s .R c s.t.arch.pc s.t.arch.pc) c :=
  ⟨⟨rfl, rfl, rfl, rfl, rfl, rfl, rfl, rfl, rfl, rfl, rfl, rfl, rfl, rfl, rfl⟩, rfl, rfl, rfl, rfl⟩

/-- A trap of kind C is taken at a closing instruction, after its commit (R329). -/
theorem takeTrap_C (s : State) (c : Cause) :
    TrappedAfterCommit s (takeTrap (commit s) .C c s.t.arch.pc s.t.arch.pc) c :=
  ⟨⟨rfl, rfl, rfl, rfl, rfl, rfl, rfl, rfl, rfl, rfl, rfl, rfl, rfl, rfl, rfl⟩, rfl, rfl, rfl⟩

/-- A trap of kind N is taken after a commit, with spc at the next instruction (R329). -/
theorem takeTrap_N (s : State) (c : Cause) (tpc next : W64) :
    Trapped s (takeTrap (commit s) .N c tpc next) .N c next tpc ∧
      (takeTrap (commit s) .N c tpc next).t.performing = s.t.performing ++ stripEffects s ∧
      (takeTrap (commit s) .N c tpc next).t.arch = { s.t.arch with pc := s.t.tvec, vp := none } ∧
      takeTrap (commit s) .N c tpc next = { s with t := (takeTrap (commit s) .N c tpc next).t } :=
  ⟨⟨rfl, rfl, rfl, rfl, rfl, rfl, rfl, rfl, rfl, rfl, rfl, rfl, rfl, rfl, rfl⟩, rfl, rfl, rfl⟩

/-- A trap of kind A commits the open strip itself (R329). -/
theorem takeTrap_A (s : State) (c : Cause) (tpc next : W64) :
    Trapped s (takeTrap s .A c tpc next) .A c next tpc ∧
      (takeTrap s .A c tpc next).t.performing = s.t.performing ++ stripEffects s ∧
      (takeTrap s .A c tpc next).t.arch = { s.t.arch with pc := s.t.tvec, vp := none } ∧
      takeTrap s .A c tpc next = { s with t := (takeTrap s .A c tpc next).t } :=
  ⟨⟨rfl, rfl, rfl, rfl, rfl, rfl, rfl, rfl, rfl, rfl, rfl, rfl, rfl, rfl, rfl⟩, rfl, rfl, rfl⟩

/-- Trap entry puts one divergence aside more than the rollback or commit before it left (R329; log entry 31). -/
theorem trapTaken_takeTrap (s : State) (k : TrapKind) (c : Cause) (tpc next : W64) :
    trapTaken s (takeTrap s k c tpc next) = true := by
  cases k <;> simp [trapTaken, takeTrap, openStrip, rollback, commit]

/-- What a dictionary word reports of a trap of its expanded form: the form, but of an engine fault, a breakpoint or a
supervisor call (R35; log entry 36). -/
theorem reportForm_trap (v : W64) (s t : State) (h : trapTaken s t = true)
    (n : bitsAt t.t.tcause.toNat 0 8 ∉ [0x12, 0x17, 0x18]) :
    reportForm v s (.next t) = .next { t with t := { t.t with tval := v } } :=
  if_pos (by rw [h, Bool.true_and, Bool.not_eq_true', ← Bool.not_eq_true, List.contains_iff_mem]; exact n)

/-- A dictionary word whose expanded form takes no trap ends as the form does. -/
theorem reportForm_done (v : W64) (s t : State) (h : trapTaken s t = false) :
    reportForm v s (.next t) = .next t := by
  simp [reportForm, h]

/-- A meaning that answers a fault of kind R ends in its trap. -/
theorem finish_faultR (s : State) (c : Cause) : ∃ t, finish (.faultR c s) = .next t ∧ RolledBack s t c :=
  ⟨_, rfl, takeTrap_R s c⟩

/-- A closing instruction that answers a fault after its commit ends in its trap. -/
theorem finish_faultC (s : State) (c : Cause) :
    ∃ t, finish (.faultC c (commit s)) = .next t ∧ TrappedAfterCommit s t c :=
  ⟨_, rfl, takeTrap_C s c⟩

/-- A meaning that waits leaves everything but the condition (R276). -/
theorem finish_waiting (s : State) (w : Wait) :
    finish (.waiting w s) = .next { s with t := { s.t with wait := w } } := rfl

/-- A closing instruction that changes the checkpointed registers alone, opened as `n` counts. -/
theorem closedStrip_openStrip (s : State) (a : Arch) (n : Nat) :
    ClosedStrip s (complete (openStrip (withArch (commit s) a) n)) n := by
  unfold ClosedStrip
  cases hm : s.t.mode <;> by_cases ha : s.t.stepArmed = true <;>
    simp only [complete, stepped, openStrip, withArch, commit, hm, ha, if_true, if_false, Bool.false_eq_true]

/-- A closing instruction that only commits (R238). -/
theorem closedStrip_closeDone (s : State) : ClosedStrip s (complete (closeDone (commit s))) 1 := by
  unfold closeDone
  rw [nextPc_eq]
  exact closedStrip_openStrip s _ 1

/-- `closeDone` moves the PC to the next word. -/
theorem closeDone_arch (s : State) :
    (closeDone s).t.arch = { s.t.arch with pc := s.t.arch.pc + 4, vp := nextVp s } := by
  simp only [closeDone, openStrip_t_arch]; exact nextPc_arch s

/-- A rollback restores the checkpoint and empties the strip (R8, R241). -/
theorem rollback_eq (s : State) : rollback s = { s with t := { s.t with
    arch := dropAhead s.t.ckpt, sfi := sfiWord s.t.strip, strip := .empty s.t.strip.opened } } := rfl

end Sys2Proof.Machine
end

