-- ==== Sys2Proof/Tests/Slice0.lean ====
section
/-! SUPPORT. The model's own tests: decoding of words written out from the spec's encodings, terms that are not well formed,
single steps with results from the spec, and for each statement a concrete state that meets its hypotheses. -/

open Sys2Proof Sys2Proof.Machine

section
set_option Elab.async false

/-! ### Decoding: words written out field by field (R21, R29, R40) -/

/-- Words of the integer instructions, each field at its bits (R21, R22, R29, R40). -/
def Sys2Proof.Tests.integerWords : List (Nat × Instr) := [
  (0x00860A10, .add { d := 6, a := 5, b := 4 }),
  (0x01060A10, .sub { d := 6, a := 5, b := 4 }),
  (0x01860A10, .and { d := 6, a := 5, b := 4 }),
  (0x02060A10, .or { d := 6, a := 5, b := 4 }),
  (0x02860A10, .xor { d := 6, a := 5, b := 4 }),
  (0x03060A10, .shl { d := 6, a := 5, b := 4 }),
  (0x03860A10, .shr { d := 6, a := 5, b := 4 }),
  (0x04060A10, .sra { d := 6, a := 5, b := 4 }),
  (0x04860A10, .mul { d := 6, a := 5, b := 4 }),
  (0x05060A10, .mulh { d := 6, a := 5, b := 4 }),
  (0x05860A10, .mulhu { d := 6, a := 5, b := 4 }),
  (0x06060A10, .div { d := 6, a := 5, b := 4 }),
  (0x06860A10, .divu { d := 6, a := 5, b := 4 }),
  (0x07060A10, .rem { d := 6, a := 5, b := 4 }),
  (0x07860A10, .remu { d := 6, a := 5, b := 4 }),
  (0x08060A10, .slt { d := 6, a := 5, b := 4 }),
  (0x08860A10, .sltu { d := 6, a := 5, b := 4 }),
  (0x09060A10, .min { d := 6, a := 5, b := 4 }),
  (0x09860A10, .max { d := 6, a := 5, b := 4 }),
  (0x0A060A10, .minu { d := 6, a := 5, b := 4 }),
  (0x0A860A10, .maxu { d := 6, a := 5, b := 4 }),
  (0x0B060A00, .clz { d := 6, a := 5 }),
  (0x0B860A00, .ctz { d := 6, a := 5 }),
  (0x0C060A00, .popc { d := 6, a := 5 }),
  (0x0C860A00, .brev { d := 6, a := 5 }),
  (0x0D060A10, .sel { d := 6, a := 5, b := 4 }),
  (0x20182FFD, .addi { d := 6, a := 5, b := 127, c := 125, imm := true }),
  (0x22182FFD, .andi { d := 6, a := 5, b := 127, c := 125, imm := true }),
  (0x24182FFD, .ori { d := 6, a := 5, b := 127, c := 125, imm := true }),
  (0x26182FFD, .xori { d := 6, a := 5, b := 127, c := 125, imm := true }),
  (0x28182FFD, .shli { d := 6, a := 5, b := 127, c := 125, imm := true }),
  (0x2A182FFD, .shri { d := 6, a := 5, b := 127, c := 125, imm := true }),
  (0x2C182FFD, .srai { d := 6, a := 5, b := 127, c := 125, imm := true }),
  (0x2E182FFD, .slti { d := 6, a := 5, b := 127, c := 125, imm := true }),
  (0x30182FFD, .sltiu { d := 6, a := 5, b := 127, c := 125, imm := true }),
  (0x32182FFD, .muli { d := 6, a := 5, b := 127, c := 125, imm := true }),
  (0x34180201, .setvli { d := 6, b := 4, c := 1, imm := true })]

theorem test_decode_integer :
    Sys2Proof.Tests.integerWords.map (fun e => decodeTableWord 32 e.1) = Sys2Proof.Tests.integerWords.map (fun e => some e.2) := by
  decide +kernel

/-- Words of the float instructions, each field at its bits (R21, R22, R29, R40). -/
def Sys2Proof.Tests.floatWords : List (Nat × Instr) := [
  (0x0D860A13, .fadd { d := 6, a := 5, b := 4, fmt := 4 }),
  (0x0E060A13, .fsub { d := 6, a := 5, b := 4, fmt := 4 }),
  (0x0E860A13, .fmul { d := 6, a := 5, b := 4, fmt := 4 }),
  (0x0F060A13, .fma { d := 6, a := 5, b := 4, fmt := 4 }),
  (0x0F860A13, .fdiv { d := 6, a := 5, b := 4, fmt := 4 }),
  (0x10060A03, .fsqrt { d := 6, a := 5, fmt := 4 }),
  (0x10860A13, .fmin { d := 6, a := 5, b := 4, fmt := 4 }),
  (0x11060A13, .fmax { d := 6, a := 5, b := 4, fmt := 4 }),
  (0x11860A13, .fcmp { d := 6, a := 5, b := 4, fmt := 4 }),
  (0x12060A0B, .fcvt { d := 6, a := 5, b := 2, fmt := 4 }),
  (0x12860A07, .ficvt { d := 6, a := 5, b := 1, fmt := 4 }),
  (0x13060A07, .ifcvt { d := 6, a := 5, b := 1, fmt := 4 })]

theorem test_decode_float :
    Sys2Proof.Tests.floatWords.map (fun e => decodeTableWord 32 e.1) = Sys2Proof.Tests.floatWords.map (fun e => some e.2) := by
  decide +kernel

/-- Words of the upper instructions, each field at its bits (R21, R22, R29, R40). -/
def Sys2Proof.Tests.upperWords : List (Nat × Instr) := [
  (0xC06FFFFD, .ldhi { d := 6, a := 127, b := 127, c := 125, imm := true }),
  (0xC86FFFFD, .addpc { d := 6, a := 127, b := 127, c := 125, imm := true }),
  (0xD060BFFD, .jalr { d := 6, a := 5, b := 127, c := 125, imm := true })]

theorem test_decode_upper :
    Sys2Proof.Tests.upperWords.map (fun e => decodeTableWord 32 e.1) = Sys2Proof.Tests.upperWords.map (fun e => some e.2) := by
  decide +kernel

/-- Words of the branch instructions, each field at its bits (R21, R22, R29, R40). -/
def Sys2Proof.Tests.branchWords : List (Nat × Instr) := [
  (0xB837FFFB, .jal { a := 127, b := 127, c := 123, imm := true, d := 6 }),
  (0xA0284FFB, .beq { d := 5, a := 4, b := 127, c := 123, imm := true }),
  (0xA4284FFB, .bne { d := 5, a := 4, b := 127, c := 123, imm := true }),
  (0xA8284FFB, .blt { d := 5, a := 4, b := 127, c := 123, imm := true }),
  (0xAC284FFB, .bge { d := 5, a := 4, b := 127, c := 123, imm := true }),
  (0xB0284FFB, .bltu { d := 5, a := 4, b := 127, c := 123, imm := true }),
  (0xB4284FFB, .bgeu { d := 5, a := 4, b := 127, c := 123, imm := true }),
  (0xBC4DFFFB, .bp { a := 127, b := 127, c := 123, imm := true, d := 9, mod := 2 })]

theorem test_decode_branch :
    Sys2Proof.Tests.branchWords.map (fun e => decodeTableWord 32 e.1) = Sys2Proof.Tests.branchWords.map (fun e => some e.2) := by
  decide +kernel

/-- Words of the function instructions, each field at its bits (R21, R22, R29, R40). -/
def Sys2Proof.Tests.functionWords : List (Nat × Instr) := [
  (0x60060A13, .fnset { d := 6, a := 5, b := 4, pred := 3 }),
  (0x60860A13, .fnld { d := 6, a := 5, b := 4, pred := 3 }),
  (0x61060A03, .fnst { d := 6, a := 5, pred := 3 }),
  (0x61860A03, .fnmov { d := 6, a := 5, pred := 3 }),
  (0x62060A13, .fnadd { d := 6, a := 5, b := 4, pred := 3 }),
  (0x62860A13, .fnsub { d := 6, a := 5, b := 4, pred := 3 }),
  (0x63060A13, .fnmul { d := 6, a := 5, b := 4, pred := 3 }),
  (0x63860A13, .fnscl { d := 6, a := 5, b := 4, pred := 3 }),
  (0x64060A13, .fnaxpy { d := 6, a := 5, b := 4, pred := 3 }),
  (0x64860A13, .fndiff { d := 6, a := 5, b := 4, pred := 3 }),
  (0x65060A13, .fnint { d := 6, a := 5, b := 4, pred := 3 }),
  (0x65860A03, .fnquad { d := 6, a := 5, pred := 3 }),
  (0x66060A13, .fnproj { d := 6, a := 5, b := 4, pred := 3 }),
  (0x66860A13, .fnbasis { d := 6, a := 5, b := 4, pred := 3 }),
  (0x67060A03, .fntrace { d := 6, a := 5, pred := 3 }),
  (0x67860A13, .fneval { d := 6, a := 5, b := 4, pred := 3 }),
  (0x68060A13, .fnlift { d := 6, a := 5, b := 4, pred := 3 }),
  (0x68860A00, .fndeg { d := 6, a := 5 }),
  (0x69060A03, .fnnorm { d := 6, a := 5, pred := 3 })]

theorem test_decode_function :
    Sys2Proof.Tests.functionWords.map (fun e => decodeTableWord 32 e.1) = Sys2Proof.Tests.functionWords.map (fun e => some e.2) := by
  decide +kernel

/-- Words of the tile instructions, each field at its bits (R21, R22, R29, R40). -/
def Sys2Proof.Tests.tileWords : List (Nat × Instr) := [
  (0x70060A12, .stl { d := 6, a := 5, b := 4, mod := 2 }),
  (0x70860A00, .tcfg { d := 6, a := 5 }),
  (0x71060000, .tzero { d := 6 }),
  (0x71860A00, .tld { d := 6, a := 5 }),
  (0x72060A10, .tldf { d := 6, a := 5, b := 4 }),
  (0x72860A00, .tst { d := 6, a := 5 }),
  (0x73060A00, .tstf { d := 6, a := 5 }),
  (0x73860A11, .tmm { d := 6, a := 5, b := 4, mod := 1 }),
  (0x74060A10, .tlmm { d := 6, a := 5, b := 4 }),
  (0x74860A10, .tadd { d := 6, a := 5, b := 4 }),
  (0x75060A00, .trecomp { d := 6, a := 5 }),
  (0x75860A00, .tdense { d := 6, a := 5 }),
  (0x76060A10, .tcomp { d := 6, a := 5, b := 4 }),
  (0x76860A10, .tscale { d := 6, a := 5, b := 4 }),
  (0x77060A10, .tcvt { d := 6, a := 5, b := 4 }),
  (0x77860A00, .trank { d := 6, a := 5 }),
  (0x78000000, .tsync {})]

theorem test_decode_tile :
    Sys2Proof.Tests.tileWords.map (fun e => decodeTableWord 32 e.1) = Sys2Proof.Tests.tileWords.map (fun e => some e.2) := by
  decide +kernel

/-- Words of the memory instructions, each field at its bits (R21, R22, R29, R40). -/
def Sys2Proof.Tests.memoryWords : List (Nat × Instr) := [
  (0x80182874, .ld { d := 6, a := 5, b := 7, mod := 1 }),
  (0x82182874, .st { d := 6, a := 5, b := 7, mod := 1 }),
  (0x84182876, .vld { d := 6, a := 5, b := 7, mod := 1, pred := 2 }),
  (0x86182876, .vst { d := 6, a := 5, b := 7, mod := 1, pred := 2 }),
  (0x88182876, .vldff { d := 6, a := 5, b := 7, mod := 1, pred := 2 }),
  (0x8A182872, .vldp { d := 6, a := 5, b := 7, pred := 2 }),
  (0x8C182872, .chsend { d := 6, a := 5, b := 7, pred := 2 }),
  (0x8E182872, .chrecv { d := 6, a := 5, b := 7, pred := 2 })]

theorem test_decode_memory :
    Sys2Proof.Tests.memoryWords.map (fun e => decodeTableWord 32 e.1) = Sys2Proof.Tests.memoryWords.map (fun e => some e.2) := by
  decide +kernel

/-- Words of the order instructions, each field at its bits (R21, R22, R29, R40). -/
def Sys2Proof.Tests.orderWords : List (Nat × Instr) := [
  (0xD8C18280, .mfrset { d := 6, a := 5 }),
  (0xD8E18284, .sbind { d := 6, a := 5, b := 4 }),
  (0xD9018000, .sfree { d := 6 }),
  (0xD9218284, .copy { d := 6, a := 5, b := 4 }),
  (0xD9818284, .chcfg { d := 6, a := 5, b := 4 }),
  (0xD9A18284, .amoadd { d := 6, a := 5, b := 4 }),
  (0xD9C18284, .amofadd { d := 6, a := 5, b := 4 }),
  (0xD9E18284, .amomax { d := 6, a := 5, b := 4 }),
  (0xDA018284, .amomin { d := 6, a := 5, b := 4 }),
  (0xDA218284, .amoand { d := 6, a := 5, b := 4 }),
  (0xDA418284, .amoor { d := 6, a := 5, b := 4 }),
  (0xDA618284, .amoswap { d := 6, a := 5, b := 4 }),
  (0xDA818284, .amocas { d := 6, a := 5, b := 4 }),
  (0xDAA18284, .amofmax { d := 6, a := 5, b := 4 }),
  (0xDAC00280, .fence { a := 5 }),
  (0xDAE01234, .waitc { a := 36, b := 52 }),
  (0xDB018280, .tlwait { d := 6, a := 5 }),
  (0xDB218280, .tlread { d := 6, a := 5 }),
  (0xDB400000, .stend {})]

theorem test_decode_order :
    Sys2Proof.Tests.orderWords.map (fun e => decodeTableWord 32 e.1) = Sys2Proof.Tests.orderWords.map (fun e => some e.2) := by
  decide +kernel

/-- Words of the system instructions, each field at its bits (R21, R22, R29, R40). -/
def Sys2Proof.Tests.systemWords : List (Nat × Instr) := [
  (0xDC000000, .bar {}),
  (0xDC218280, .launch { d := 6, a := 5 }),
  (0xDC218281, .launchNb { d := 6, a := 5, b := 1 }),
  (0xDC418280, .join { d := 6, a := 5 }),
  (0xDC600280, .cancel { a := 5 }),
  (0xDC818280, .ccread { d := 6, a := 5 }),
  (0xDCA00000, .yield {}),
  (0xDCC18280, .lanepart { d := 6, a := 5 }),
  (0xDCE4C280, .coll { d := 19, a := 5 }),
  (0xDD000284, .xsend { a := 5, b := 4 }),
  (0xDD200000, .exit {}),
  (0xDE000280, .dload { a := 5 }),
  (0xDE200000, .dsync {}),
  (0xDE418280, .dread { d := 6, a := 5 }),
  (0xDE618113, .sysrd { d := 6, b := 2, c := 19, imm := true }),
  (0xDE818113, .syswr { d := 6, b := 2, c := 19, imm := true }),
  (0xDEA18113, .sysset { d := 6, b := 2, c := 19, imm := true }),
  (0xDEC18113, .sysclr { d := 6, b := 2, c := 19, imm := true }),
  (0xDEE00280, .svc { a := 5 }),
  (0xDF000284, .trap { a := 5, b := 4 }),
  (0xDF200000, .tret {}),
  (0xDF400284, .tlbinv { a := 5, b := 4 }),
  (0xDF612345, .brkpt { d := 4, a := 70, b := 69 })]

theorem test_decode_system :
    Sys2Proof.Tests.systemWords.map (fun e => decodeTableWord 32 e.1) = Sys2Proof.Tests.systemWords.map (fun e => some e.2) := by
  decide +kernel

/-- Words of the dictionary instructions, each field at its bits (R21, R22, R29, R40). -/
def Sys2Proof.Tests.dictionaryWords : List (Nat × Instr) := [
  (0xF9014307, .dictionaryWord 200 5 6 7)]

theorem test_decode_dictionary :
    Sys2Proof.Tests.dictionaryWords.map (fun e => decodeTableWord 32 e.1) = Sys2Proof.Tests.dictionaryWords.map (fun e => some e.2) := by
  decide +kernel

/-- Words of the vector instructions, each field at its bits (R21, R22, R29, R40). -/
def Sys2Proof.Tests.vectorWords : List (Nat × Instr) := [
  (0x40060A00, .setvl { d := 6, a := 5 }),
  (0x40800A00, .vcfg { a := 5 }),
  (0x41051644, .vsetty { d := 5, a := 11, b := 17 }),
  (0x41860A13, .vadd { d := 6, a := 5, b := 4, pred := 3 }),
  (0x42060A13, .vsub { d := 6, a := 5, b := 4, pred := 3 }),
  (0x42860A13, .vmul { d := 6, a := 5, b := 4, pred := 3 }),
  (0x43060A13, .vfma { d := 6, a := 5, b := 4, pred := 3 }),
  (0x43860A13, .vfms { d := 6, a := 5, b := 4, pred := 3 }),
  (0x44060A13, .vdiv { d := 6, a := 5, b := 4, pred := 3 }),
  (0x44860A03, .vsqrt { d := 6, a := 5, pred := 3 }),
  (0x45060A13, .vmin { d := 6, a := 5, b := 4, pred := 3 }),
  (0x45860A13, .vmax { d := 6, a := 5, b := 4, pred := 3 }),
  (0x46060A03, .vabs { d := 6, a := 5, pred := 3 }),
  (0x46860A03, .vneg { d := 6, a := 5, pred := 3 }),
  (0x47060A13, .vand { d := 6, a := 5, b := 4, pred := 3 }),
  (0x47860A13, .vor { d := 6, a := 5, b := 4, pred := 3 }),
  (0x48060A13, .vxor { d := 6, a := 5, b := 4, pred := 3 }),
  (0x48860A13, .vshl { d := 6, a := 5, b := 4, pred := 3 }),
  (0x49060A13, .vshr { d := 6, a := 5, b := 4, pred := 3 }),
  (0x49860A13, .vsra { d := 6, a := 5, b := 4, pred := 3 }),
  (0x4A060A13, .vcmp { d := 6, a := 5, b := 4, pred := 3 }),
  (0x4A860A13, .vsel { d := 6, a := 5, b := 4, pred := 3 }),
  (0x4B060A03, .vcvt { d := 6, a := 5, pred := 3 }),
  (0x4B860A03, .vwid { d := 6, a := 5, pred := 3 }),
  (0x4C060A03, .vnar { d := 6, a := 5, pred := 3 }),
  (0x4C860A03, .vsplat { d := 6, a := 5, pred := 3 }),
  (0x4D060003, .vidx { d := 6, pred := 3 }),
  (0x4D860A10, .vext { d := 6, a := 5, b := 4 }),
  (0x4E060A10, .vins { d := 6, a := 5, b := 4 }),
  (0x4E860A13, .vslide { d := 6, a := 5, b := 4, pred := 3 }),
  (0x4F060A13, .vperm { d := 6, a := 5, b := 4, pred := 3 })]

theorem test_decode_vector :
    Sys2Proof.Tests.vectorWords.map (fun e => decodeTableWord 32 e.1) = Sys2Proof.Tests.vectorWords.map (fun e => some e.2) := by
  decide +kernel

/-- Words of the vector more instructions, each field at its bits (R21, R22, R29, R40). -/
def Sys2Proof.Tests.vectorMoreWords : List (Nat × Instr) := [
  (0x4F860A13, .vshape { d := 6, a := 5, b := 4, pred := 3 }),
  (0x50060A03, .vcompress { d := 6, a := 5, pred := 3 }),
  (0x50860A03, .vexpand { d := 6, a := 5, pred := 3 }),
  (0x51060A13, .vredsum { d := 6, a := 5, b := 4, pred := 3 }),
  (0x51860A13, .vredtsum { d := 6, a := 5, b := 4, pred := 3 }),
  (0x52060A13, .vredmax { d := 6, a := 5, b := 4, pred := 3 }),
  (0x52860A13, .vredmin { d := 6, a := 5, b := 4, pred := 3 }),
  (0x53060A13, .vscan { d := 6, a := 5, b := 4, pred := 3 }),
  (0x53860A03, .vexpf { d := 6, a := 5, pred := 3 }),
  (0x54060A03, .vexpx { d := 6, a := 5, pred := 3 }),
  (0x54860A03, .vlogf { d := 6, a := 5, pred := 3 }),
  (0x55060A03, .vlogx { d := 6, a := 5, pred := 3 }),
  (0x55860A03, .vrcpf { d := 6, a := 5, pred := 3 }),
  (0x56060A03, .vrcpx { d := 6, a := 5, pred := 3 }),
  (0x56860A03, .vrsqf { d := 6, a := 5, pred := 3 }),
  (0x57060A03, .vrsqx { d := 6, a := 5, pred := 3 }),
  (0x57860A03, .vsinf { d := 6, a := 5, pred := 3 }),
  (0x58060A03, .vsinx { d := 6, a := 5, pred := 3 }),
  (0x58860A03, .vtanhf { d := 6, a := 5, pred := 3 }),
  (0x59060A03, .vtanhx { d := 6, a := 5, pred := 3 }),
  (0x59860A10, .pand { d := 6, a := 5, b := 4 }),
  (0x5A060A10, .por { d := 6, a := 5, b := 4 }),
  (0x5A860A10, .pxor { d := 6, a := 5, b := 4 }),
  (0x5B060A10, .pandn { d := 6, a := 5, b := 4 }),
  (0x5B860A00, .ppopc { d := 6, a := 5 }),
  (0x5C060A00, .pfirst { d := 6, a := 5 }),
  (0x5C860A10, .pbrk { d := 6, a := 5, b := 4 }),
  (0x5D060A10, .pfromx { d := 6, a := 5, b := 4 }),
  (0x5D800A13, .vpfetch { a := 5, b := 4, pred := 3 }),
  (0x5E000000, .vpjoin {}),
  (0x5E860A13, .vdot { d := 6, a := 5, b := 4, pred := 3 })]

theorem test_decode_vector_more :
    Sys2Proof.Tests.vectorMoreWords.map (fun e => decodeTableWord 32 e.1) = Sys2Proof.Tests.vectorMoreWords.map (fun e => some e.2) := by
  decide +kernel

/-- Long forms that the spec writes out: N24, N40 and the long forms of L4, L5 and R246. -/
theorem test_decode_long_forms :
    [(0xC204_0C00_3000_1000, Instr.vld { d := 2, a := 3, c := 3, fmt := 2 }),
     (0xD600_4C00_0000_0500, .fence { a := 19, mod := 20 }),
     (0x5402_0410_0000_0100, .vcmp { d := 1, a := 1, b := 2, mod := 4 }),
     (0xC302_1000_0000_0800, .vst { d := 1, a := 4, fmt := 1 }),
     (0x5602_0800_0000_1800, .vcvt { d := 1, a := 2, fmt := 3 }),
     (0xD50C_2038_0000_1500, .amofmax { d := 6, a := 8, b := 7, fmt := 2, mod := 20 })].all
      (fun e => decodeLong (BitVec.ofNat 64 e.1) == some e.2 && encode e.2 != none) = true := by decide +kernel

/-- A D word fills its template: N24 of L1, the vcmp of L4, and the vcvt of L5 (R25). -/
theorem test_expand_dictionary_words :
    expandEntry 0xC200000030001004 2 3 0 = 0xC2040C0030001000 ∧ expandEntry 0x5400000000000100 1 1 2 = 0x5402041000000100 ∧
      expandEntry 0x5600000000001804 1 2 0 = 0x5602080000001800 := by decide +kernel

/-- A D word decodes to its entry and its holes: N24 of L1 (R21). -/
theorem test_decode_n24 : decodeTableWord 32 0xE1008180 = some (.dictionaryWord 8 2 3 0) := by decide +kernel

/-- Opcode 0x00 whatever its other bits (R108). -/
theorem test_decode_udf : decodeTableWord 32 0 = some (.udf 0) ∧ decodeTableWord 32 0x7FFFFF = some (.udf 0x7FFFFF) := by
  decide +kernel

/-- Words that no instruction has (R21, R22, R28, R40): a gap of op6 in each major format, a nonzero unused field, a type field
where there is none, test 11 of `bp`, `setvli` with a register and with a negative immediate, tile modifier 01 off `tmm`. -/
theorem test_decode_refuses :
    [0x13800000, 0x5F000000, 0x6A000000, 0x78800000, 0x36000000, 0x34000800, 0x34000400, 0x90000000, 0xBC060000, 0xDF800000,
     0x00860A11, 0x0B060A10, 0x71860A11].all
      (fun w => decodeTableWord 32 w == none) = true := by decide +kernel

/-! ### Terms that are not well formed, one for each check (R24) -/

/-- Item 3: a predicate above 95, p0 inverted, a predicate on an opcode that is not maskable. -/
theorem test_illFormed_predicate :
    [Instr.vadd { pred := 96 }, .vadd { pinv := true }, .add { pred := 1 }, .setvl { pred := 1 }].all
      (fun i => !WellFormed i) = true := by decide +kernel

/-- Item 4: an ordering class off the access opcodes. -/
theorem test_illFormed_class :
    [Instr.add { cls := 1 }, .fence { cls := 1 }, .chsend { cls := 1 }].all (fun i => !WellFormed i) = true := by
  decide +kernel

/-- Item 5: a format code that the opcode does not allow (R27). -/
theorem test_illFormed_format :
    [Instr.add { fmt := 1 }, .fadd { fmt := 5 }, .vadd { fmt := 7 }, .vadd { fmt := 20 }, .pand { fmt := 1 },
     .vld { fmt := 15 }, .ld { fmt := 5 }, .amoadd { fmt := 2 }, .amofadd { fmt := 3 }, .tldf { fmt := 4 }, .tcvt { fmt := 7 },
     .tmm { fmt := 1 }].all (fun i => !WellFormed i) = true := by decide +kernel

/-- Item 6: a modifier that the opcode does not define (R28). -/
theorem test_illFormed_modifier :
    [Instr.add { mod := 1 }, .fadd { mod := 7 }, .fadd { mod := 8 }, .fdiv { mod := 15 }, .fdiv { mod := 16 },
     .vcmp { mod := 7 }, .bar { mod := 6 }, .bar { mod := 24 }, .vld { mod := 4 }, .fnmul { mod := 3 }, .fntrace { mod := 6 },
     .stl { mod := 1 }, .tmm { mod := 2 }, .tld { mod := 1 }, .bp { mod := 3, imm := true }].all
      (fun i => !WellFormed i) = true := by decide +kernel

/-- Item 7: an immediate shape that the opcode does not have, or one without the IMM that it needs (R26). -/
theorem test_illFormed_immediate :
    [Instr.sub { imm := true }, .beq {}, .jalr {}, .jal {}, .bp {}, .ldhi {}, .ldhi { a := 32, imm := true },
     .ldhi { a := 95, imm := true }, .setvli { a := 1, imm := true }, .setvli { b := 32, imm := true },
     .ld { mod := 1, imm := true }, .sysrd { a := 1, imm := true }, .sysrd { b := 32, imm := true }].all
      (fun i => !WellFormed i) = true := by decide +kernel

/-- Items 8 and 10: an unused field that is not zero, and a register number beyond its kind. -/
theorem test_illFormed_registers :
    [Instr.add { c := 1 }, .clz { b := 1 }, .exit { d := 1 }, .add { d := 64 }, .add { a := 64 }, .add { b := 64 },
     .vadd { d := 64 }, .pand { d := 96 }, .fnadd { d := 16 }, .tmm { d := 16 }, .sfree { d := 8 }, .chcfg { d := 16 },
     .tlread { a := 24 }, .fntrace { d := 64 }, .vld { b := 64, mod := 1 }, .vld { b := 64, mod := 2 },
     .vld { b := 8, mod := 3 }].all (fun i => !WellFormed i) = true := by decide +kernel

/-- Item 1: the constructor is not the one that the opcode and IMM name. -/
theorem test_illFormed_twin :
    [Instr.add { imm := true }, .addi {}, .setvl { imm := true }, .setvli {}, .launch { b := 1 }, .launchNb {}].all
      (fun i => !WellFormed i) = true := by decide +kernel

/-- The terms beside them are well formed: the last value that each check lets pass. -/
theorem test_wellFormed_limits :
    [Instr.vadd { pred := 95, pinv := true }, .ld { cls := 15 }, .fadd { fmt := 4 }, .vadd { fmt := 19 }, .vld { fmt := 14 },
     .fdiv { mod := 14 }, .bar { mod := 21 }, .stl { mod := 3 }, .ldhi { a := 31, b := 127, c := 127, imm := true },
     .ldhi { a := 96, imm := true }, .setvli { b := 31, c := 127, imm := true }, .add { d := 63, a := 63, b := 63 },
     .pand { d := 95 }, .fnadd { d := 15 }, .tmm { d := 15, mod := 1 }, .sfree { d := 7 }, .tlwait { d := 23 },
     .addi { imm := true }, .launchNb { b := 1 }].all (fun i => WellFormed i) = true := by decide +kernel

/-! ### Single steps, with results by hand from the rules -/

/-- A started vector thread of 8 lanes and 32 registers, and a started MCC thread. -/
def Sys2Proof.Tests.vec : State := State.reset.withFetchWord 32 0
def Sys2Proof.Tests.mcc : State := State.reset.withFetchWord 32 0x70000000

/-- The machine with X[5] and X[4] set. -/
def Sys2Proof.Tests.xs (a b : W64) (s : State) : State := setX (setX s 5 a) 4 b

/-- The machine that an instruction leaves. -/
def Sys2Proof.Tests.run (i : Instr) (s : State) : State :=
  match exec i s with
  | .next t => t
  | _ => s

open Sys2Proof.Tests

/-- X[6] after an instruction on X[5] and X[4]. -/
def Sys2Proof.Tests.x6 (i : Form → Instr) (a b : W64) : W64 := getX (run (i { d := 6, a := 5, b := 4 }) (xs a b vec)) 6

/-- R98: sums wrap, shifts take six bits, high products by sign, comparisons by sign. -/
theorem test_step_integer :
    x6 .add 0xFFFFFFFFFFFFFFFF 1 = 0 ∧ x6 .sub 0 1 = 0xFFFFFFFFFFFFFFFF ∧ x6 .shl 1 65 = 2 ∧
      x6 .sra 0x8000000000000000 63 = 0xFFFFFFFFFFFFFFFF ∧ x6 .shr 0x8000000000000000 63 = 1 ∧
      x6 .mulh 0xFFFFFFFFFFFFFFFF 0xFFFFFFFFFFFFFFFF = 0 ∧
      x6 .mulhu 0xFFFFFFFFFFFFFFFF 0xFFFFFFFFFFFFFFFF = 0xFFFFFFFFFFFFFFFE ∧
      x6 .slt 0xFFFFFFFFFFFFFFFF 0 = 1 ∧ x6 .sltu 0xFFFFFFFFFFFFFFFF 0 = 0 := by decide +kernel

/-- R99: division by zero and the quotient that does not fit. -/
theorem test_step_division :
    x6 .div 7 0 = 0xFFFFFFFFFFFFFFFF ∧ x6 .rem 7 0 = 7 ∧ x6 .div 0x8000000000000000 0xFFFFFFFFFFFFFFFF = 0x8000000000000000 ∧
      x6 .rem 0x8000000000000000 0xFFFFFFFFFFFFFFFF = 0 ∧ x6 .div 0xFFFFFFFFFFFFFFF9 2 = 0xFFFFFFFFFFFFFFFD ∧
      x6 .rem 0xFFFFFFFFFFFFFFF9 2 = 0xFFFFFFFFFFFFFFFF ∧ x6 .divu 0xFFFFFFFFFFFFFFFF 0 = 0xFFFFFFFFFFFFFFFF := by
  decide +kernel

/-- R102, R67: 1 + 2, 1 / 3 rounded to nearest even, 1 / 0, and the canonical NaN of 0 / 0, in f32. -/
theorem test_step_float :
    (run (.fadd { d := 6, a := 5, b := 4, fmt := 2 }) (xs 0x3F800000 0x40000000 vec)).t.arch.x[6] = 0x40400000 ∧
      x6 .fdiv 0x3F800000 0x40400000 = 0x3EAAAAAB ∧ x6 .fdiv 0x3F800000 0 = 0x7F800000 ∧ x6 .fdiv 0 0 = 0x7FC00000 := by
  decide +kernel

/-- R106, R107: a taken branch counts words from itself; `jal` links the next word. -/
theorem test_step_jumps :
    let p := cspBase
    (run (.beq { d := 5, a := 4, c := 3, imm := true }) (xs 9 9 vec)).t.arch.pc.toNat = p + 12 ∧
      (run (.beq { d := 5, a := 4, c := 3, imm := true }) (xs 9 8 vec)).t.arch.pc.toNat = p + 4 ∧
      (run (.jal { d := 6, a := 127, b := 127, c := 126, imm := true }) vec).t.arch.pc.toNat = p - 8 ∧
      (getX (run (.jal { d := 6, c := 2, imm := true }) vec) 6).toNat = p + 4 := by decide +kernel

/-- R88, R90: with 32 registers and 8 lanes a register holds 256 elements of 32 bits; a larger request gets 256, a smaller one
what it asks for. -/
theorem test_step_setvl :
    (run (.setvl { d := 6, a := 5 }) (xs 300 0 vec)).t.arch.vl = 256 ∧ getX (run (.setvl { d := 6, a := 5 }) (xs 300 0 vec)) 6 = 256 ∧
      (run (.setvl { d := 6, a := 5 }) (xs 44 0 vec)).t.arch.vl = 44 := by decide +kernel

/-- R96: N5 of L1, `vsetty.f32.rne.b64`, sets TYPE 2 and BLEN 64 (code 2). -/
theorem test_step_vsetty : (run (.vsetty { d := 2, b := 16 }) vec).t.arch.vtr.toNat % 32 = 2 ∧
    vtrBlock (run (.vsetty { d := 2, b := 16 }) vec) = 64 := by decide +kernel

/-- A thread with vl 4, i32 elements, V[2] = 1, 2, 3, 4 and V[1] = 10, 20, 30, 40, and P[1] = elements 1 and 3. -/
def Sys2Proof.Tests.elems : State :=
  let s := run (.vsetty { d := 13 }) vec
  let s := withArch s { s.t.arch with vl := 4 }
  setPred (setV (setV s 2 32 [(0, 1), (1, 2), (2, 3), (3, 4)]) 1 32 [(0, 10), (1, 20), (2, 30), (3, 40)]) 1 10

/-- The first four elements of a register. -/
def Sys2Proof.Tests.four (s : State) (r : Field) : List Nat := (List.range 4).map (getV s r 32)

/-- R109, R110: a masked sum changes the active elements alone; an unmasked product changes all. -/
theorem test_step_vector_arithmetic :
    four (run (.vadd { d := 2, a := 2, b := 1, pred := 1 }) elems) 2 = [1, 22, 3, 44] ∧
      four (run (.vmul { d := 3, a := 2, b := 1 }) elems) 3 = [10, 40, 90, 160] := by decide +kernel

/-- R123: the first true element, the count, and the elements before the first true one. -/
theorem test_step_predicates :
    getX (run (.pfirst { d := 6, a := 1 }) elems) 6 = 1 ∧ getX (run (.ppopc { d := 6, a := 1 }) elems) 6 = 2 ∧
      getX (run (.pfirst { d := 6, a := 2 }) elems) 6 = 0xFFFFFFFFFFFFFFFF ∧
      predBits (run (.pbrk { d := 3, a := 1 }) elems) 3 % 16 = 1 := by decide +kernel

/-- R209, R217: a load sees the thread's own store before it performs; the bytes are little-endian. -/
theorem test_step_store_then_load :
    let s := run (.st { d := 5, a := 4 }) (xs 0x1122334455667788 (BitVec.ofNat 64 (cspBase + 64)) vec)
    getX (run (.ld { d := 6, a := 4 }) s) 6 = 0x1122334455667788 ∧ viewByte s (cspBase + 64) = 0x88 ∧
      rawByte s (cspBase + 64) = 0 := by decide +kernel

/-- R217, R326: a misaligned load is cause 0x06 with the address in tval, of kind R. -/
theorem test_step_misaligned :
    let s := run (.ld { d := 6, a := 4 }) (xs 0 (BitVec.ofNat 64 (cspBase + 65)) vec)
    s.t.tcause = 6 ∧ s.t.tval.toNat = cspBase + 65 ∧ s.t.mode = .super ∧ s.t.tstat.toNat / 16 % 4 = 0 ∧ s.t.arch.pc = s.t.tvec := by
  decide +kernel

/-- R246: an AMO returns the old value and stores the new one at once. -/
theorem test_step_amoadd :
    let s := run (.amoadd { d := 6, a := 4, b := 5 }) (xs 3 (BitVec.ofNat 64 (cspBase + 64)) vec)
    getX s 6 = 0 ∧ rawByte s (cspBase + 64) = 3 := by decide +kernel

/-- R324: `svc` is cause 0x18 with X[a] in tval, tpc its own address and spc the next. -/
theorem test_step_svc :
    let s := run (.svc { a := 5 }) (xs 77 0 vec)
    s.t.tcause = 0x18 ∧ s.t.tval = 77 ∧ s.t.tpc.toNat = cspBase ∧ s.t.spc.toNat = cspBase + 4 ∧ s.t.mode = .super := by
  decide +kernel

/-- R334, R336, R108: `trap`, `brkpt` and opcode 0x00. -/
theorem test_step_traps :
    (run (.trap { a := 5, b := 4 }) (xs 1 9 vec)).t.tcause = 0x16 ∧ (run (.trap { a := 5, b := 4 }) (xs 1 9 vec)).t.tval = 9 ∧
      (run (.trap { a := 5, b := 4 }) (xs 0 9 vec)).t.mode = .user ∧ (run (.brkpt { a := 1 }) vec).t.tval = 128 ∧
      (run (.udf 0) vec).t.tcause = 1 := by decide +kernel

/-- R335: `tret` after `svc` comes back to U mode at the next instruction. -/
theorem test_step_tret :
    let s := run (.tret {}) (run (.svc { a := 5 }) vec)
    s.t.mode = .user ∧ s.t.arch.pc.toNat = cspBase + 4 := by decide +kernel

/-- R323: `sysrd` of vnreg, and of tvec in U mode. -/
theorem test_step_sysrd :
    getX (run (.sysrd { d := 6, c := 7, imm := true }) vec) 6 = 32 ∧
      (run (.sysrd { d := 6, b := 2, imm := true }) vec).t.tcause = 4 := by decide +kernel

/-- R189: `stl` caps M and N at 128 and K at 256, and the last register written wins. -/
theorem test_step_stl :
    let s := setX (xs 200 64 mcc) 6 1000
    getX (run (.stl { d := 5, a := 4, b := 6 }) s) 5 = 128 ∧ getX (run (.stl { d := 5, a := 4, b := 6 }) s) 4 = 64 ∧
      getX (run (.stl { d := 5, a := 4, b := 6 }) s) 6 = 256 ∧ getX (run (.stl { d := 6, a := 6, b := 6 }) s) 6 = 256 := by
  decide +kernel

/-- R81, R92: `setvl` counts strips and zeroes the rounding ordinal. -/
theorem test_step_strip :
    (run (.setvl { d := 6, a := 5 }) vec).t.arch.stripSeq = 1 ∧ (run (.setvl { d := 6, a := 5 }) vec).t.strip = .empty 0 := by
  decide +kernel

/-- A step from power-on runs the word that stands where the next instruction is fetched. -/
theorem test_step_fetches : (match step (State.reset.withFetchWord 32 0x00860A10) with
    | .next t => t.t.arch.pc.toNat == cspBase + 4 && t.t.mode == .user
    | _ => false) = true := by decide +kernel

/-! ### Witnesses: states and operands that meet the hypotheses of the statements -/

/-- `Able` as a test. -/
def Sys2Proof.Tests.able (opc : Nat) (f : Form) (s : State) : Bool := running s && (checkForm opc f s).isNone

theorem Sys2Proof.Tests.able_of {opc : Nat} {f : Form} {s : State} (h : able opc f s = true) : Able opc f s := by
  simp only [able, Bool.and_eq_true, Option.isNone_iff_eq_none] at h
  exact h

theorem Sys2Proof.Tests.all_cons {α : Type} {P : α → Prop} {a : α} {l : List α} (h : P a) (t : ∀ r ∈ l, P r) :
    ∀ r ∈ a :: l, P r := List.forall_mem_cons.2 ⟨h, t⟩

theorem Sys2Proof.Tests.all_nil {α : Type} {P : α → Prop} : ∀ r ∈ ([] : List α), P r := nofun

/-- The started thread with vl 4 and f32 elements. -/
def Sys2Proof.Tests.floats : State := withArch vec { vec.t.arch with vl := 4 }

/-- Operands d 6, a 5, b 4 of one register each, and an immediate. -/
def Sys2Proof.Tests.rrr : Form := { d := 6, a := 5, b := 4 }
def Sys2Proof.Tests.rri : Form := { d := 6, a := 5, c := 4, imm := true }

theorem test_witness_integer : ∀ r ∈ integerRows ++ bitRows, Able r.opc rrr vec ∧ r.can rrr vec := by
  have h : (integerRows ++ bitRows).all (fun r => able r.opc rrr vec) = true := by decide +kernel
  have c : ∀ r ∈ integerRows ++ bitRows, r.can = fun _ _ => True := by simp [integerRows, bitRows]
  exact fun r hr => ⟨able_of (List.all_eq_true.1 h r hr), by rw [c r hr]; trivial⟩

theorem test_witness_float : ∀ r ∈ floatRows, Able r.opc { rrr with b := 1, fmt := 2 } vec ∧ r.can { rrr with b := 1, fmt := 2 } vec := by
  have h : floatRows.all (fun r => able r.opc { rrr with b := 1, fmt := 2 } vec) = true := by decide +kernel
  have c : ∀ r ∈ floatRows, r.can = fun _ _ => True := by simp [floatRows]
  exact fun r hr => ⟨able_of (List.all_eq_true.1 h r hr), by rw [c r hr]; trivial⟩

theorem test_witness_jump : ∀ r ∈ jumpRows, ∃ f s, Able r.opc f s ∧ r.can f s := by
  dsimp only [jumpRows]
  repeat' (first | exact all_nil | refine all_cons ⟨rri, vec, able_of (by decide +kernel), by decide +kernel⟩ ?_)

theorem test_witness_element : ∀ r ∈ elementRows, ∃ f s, Able r.opc f s ∧ fmtFits f s = true ∧
    (∀ n ∈ r.operands f, spanOk s n (elemType f s).width = true) ∧ r.accepts (elemType f s) = true ∧ activeList s f ≠ [] := by
  have h : elementRows.all (fun r => [elems, floats].any (fun s => able r.opc rrr s && fmtFits rrr s &&
      (r.operands rrr).all (fun n => spanOk s n (elemType rrr s).width) && r.accepts (elemType rrr s) &&
      (activeList s rrr != []))) = true := by decide +kernel
  intro r hr
  obtain ⟨s, -, hs⟩ := List.any_eq_true.1 (List.all_eq_true.1 h r hr)
  simp only [Bool.and_eq_true, List.all_eq_true, bne_iff_ne, ne_eq] at hs
  exact ⟨rrr, s, able_of hs.1.1.1.1, hs.1.1.1.2, hs.1.1.2, hs.1.2, hs.2⟩

theorem test_witness_transcendental : ∀ r ∈ transcendentalRows, Able r.opc { d := 6, a := 5 } floats ∧
    fmtFits { d := 6, a := 5 } floats = true ∧
    (∀ n ∈ r.operands { d := 6, a := 5 }, spanOk floats n (elemType { d := 6, a := 5 } floats).width = true) ∧
    r.accepts (elemType { d := 6, a := 5 } floats) = true := by
  have h : transcendentalRows.all (fun r => able r.opc { d := 6, a := 5 } floats && fmtFits { d := 6, a := 5 } floats &&
      (r.operands { d := 6, a := 5 }).all (fun n => spanOk floats n (elemType { d := 6, a := 5 } floats).width) &&
      r.accepts (elemType { d := 6, a := 5 } floats)) = true := by decide +kernel
  intro r hr
  have hs := List.all_eq_true.1 h r hr
  simp only [Bool.and_eq_true, List.all_eq_true] at hs
  exact ⟨able_of hs.1.1.1, hs.1.1.2, hs.1.2, hs.2⟩

/-- Operands that a conversion to a wider and to a narrower type may have too. -/
def Sys2Proof.Tests.conv : Form := { d := 6, a := 4 }

theorem test_witness_rearrange : ∀ r ∈ rearrangeRows, ∃ f s, Able r.opc f s ∧ r.can f s := by
  dsimp only [rearrangeRows]
  refine all_cons ⟨conv, floats, able_of (by decide +kernel), .f32, by decide +kernel⟩ ?_
  refine all_cons ⟨conv, floats, able_of (by decide +kernel), .f64, by decide +kernel⟩ ?_
  refine all_cons ⟨conv, floats, able_of (by decide +kernel), .bf16, by decide +kernel⟩ ?_
  repeat' (first | exact all_nil |
    refine all_cons ⟨{ d := 6, a := 4, b := 4 }, setX floats 4 2, able_of (by decide +kernel), by decide +kernel⟩ ?_)

theorem test_witness_predicate : ∀ r ∈ predicateRows, ∃ f s, Able r.opc f s ∧ r.can f s := by
  dsimp only [predicateRows]
  repeat' (first | exact all_nil | refine all_cons ⟨rrr, elems, able_of (by decide +kernel), by decide +kernel⟩ ?_)

theorem test_witness_scalarResult : ∀ r ∈ scalarResultRows, ∃ f s, Able r.opc f s ∧ r.can f s := by
  dsimp only [scalarResultRows]
  repeat' (first | exact all_nil | refine all_cons ⟨rrr, elems, able_of (by decide +kernel), by decide +kernel⟩ ?_)

/-- F[1] and F[2] of dimension 2 and degree 1, and F[3] of dimension 1, modal and f32, in a thread with vl 4. -/
def Sys2Proof.Tests.fns : State :=
  let s := xs 0x12 0x3F800000 floats
  let s := run (.fnset { d := 2, a := 5, b := 4 }) (run (.fnset { d := 1, a := 5, b := 4 }) s)
  run (.fnset { d := 3, a := 5, b := 4 }) (setX s 5 0x11)

/-- A result's shape exists, its degree is within the cap and the pool has the granules. -/
def Sys2Proof.Tests.fnFits (r : FnRow) (f : Form) (s : State) : Bool :=
  able r.opc f s && match r.shape f s with
    | some h => decide (h.p ≤ degreeCap h.d) && !poolShort s f.d (h.granules s.t.arch.vl) && (activeList s f != [])
    | none => false

theorem Sys2Proof.Tests.fnFits_of {r : FnRow} {f : Form} {s : State} (h : fnFits r f s = true) (c : r.can f s) :
    ∃ f s h, Able r.opc f s ∧ r.can f s ∧ r.shape f s = some h ∧ h.p ≤ degreeCap h.d ∧
      poolShort s f.d (h.granules s.t.arch.vl) = false ∧ activeList s f ≠ [] := by
  simp only [fnFits, Bool.and_eq_true] at h
  split at h
  · rename_i x e
    simp only [Bool.and_eq_true, decide_eq_true_eq, Bool.not_eq_true', bne_iff_ne, ne_eq] at h
    exact ⟨f, s, x, able_of h.1, c, e, h.2.1.1, h.2.1.2, h.2.2⟩
  · exact absurd h.2 (by simp)

theorem test_witness_function : ∀ r ∈ fnResultRows, ∃ f s h, Able r.opc f s ∧ r.can f s ∧ r.shape f s = some h ∧
    h.p ≤ degreeCap h.d ∧ poolShort s f.d (h.granules s.t.arch.vl) = false ∧ activeList s f ≠ [] := by
  dsimp only [fnResultRows]
  refine all_cons (fnFits_of (f := { d := 4, a := 5, b := 4 }) (s := fns) (by decide +kernel) trivial) ?_
  iterate 10 refine all_cons (fnFits_of (f := { d := 1, a := 2, b := 1 }) (s := setX fns 1 1) (by decide +kernel)
    (by decide +kernel)) ?_
  iterate 2 refine all_cons (fnFits_of (f := { d := 1, a := 2 }) (s := fns) (by decide +kernel) (by decide +kernel)) ?_
  exact all_nil

theorem test_witness_fnset_zero : Able 0x80 { d := 1, a := 5 } fns ∧ getX (setX fns 5 0) 5 = 0 :=
  ⟨able_of (by decide +kernel), by decide +kernel⟩

theorem test_witness_functionReal : ∀ r ∈ functionRealRows, ∃ f s, Able r.opc f s ∧ r.can f s := by
  dsimp only [functionRealRows]
  refine all_cons ⟨{ d := 6, a := 1 }, fns, able_of (by decide +kernel), by decide +kernel⟩ ?_
  refine all_cons ⟨{ d := 6, a := 1 }, fns, able_of (by decide +kernel), by decide +kernel⟩ ?_
  refine all_cons ⟨{ d := 6, a := 1, b := 4 }, fns, able_of (by decide +kernel), by decide +kernel⟩ ?_
  exact all_cons ⟨{ d := 6, a := 3, mod := 1 }, fns, able_of (by decide +kernel), by decide +kernel⟩ all_nil

theorem Sys2Proof.Tests.epochEnded_of {s : State} (h : isDet s = false) : EpochEnded s :=
  fun _ _ hd => absurd hd (by rw [h]; decide)

/-- No epoch is left to wait for before the first epoch fence. -/
theorem Sys2Proof.Tests.epochEnded_first {s : State} (h : s.t.epoch = 0) : EpochEnded s := fun _ _ _ => h ▸ Nat.zero_le _

/-- A result that is there passes a test. -/
def Sys2Proof.Tests.okThen {ε α : Type} (x : Except ε (α × State)) (p : α → State → Bool) : Bool :=
  match x with
  | .ok (a, s) => p a s
  | .error _ => false

theorem Sys2Proof.Tests.ok_of {ε α : Type} {x : Except ε (α × State)} {p : α → State → Bool} (h : okThen x p = true) :
    ∃ a s, x = .ok (a, s) ∧ p a s = true := by
  unfold okThen at h
  split at h
  · exact ⟨_, _, rfl, h⟩
  · exact absurd h (by simp)

/-- X[4] at the scratchpad's byte 64, X[5] at its byte 256. -/
def Sys2Proof.Tests.addrs (s : State) : State := xs (BitVec.ofNat 64 (cspBase + 256)) (BitVec.ofNat 64 (cspBase + 64)) s

theorem test_witness_scalarLoad : ∃ f s locs s1, Able 0xC0 f s ∧ EpochEnded s ∧ (scalarAddr f s).toNat % scalarBytes f = 0 ∧
    translateElem s (threadSpace s) .load (scalarAddr f s).toNat (scalarBytes f) = .ok (locs, s1) ∧
    dataError s1 (scalarAddr f s).toNat locs = none := by
  obtain ⟨a, b, h, k⟩ := ok_of (p := fun l s1 => (dataError s1 (cspBase + 64) l).isNone)
    (x := translateElem (addrs vec) (threadSpace (addrs vec)) .load (cspBase + 64) 8) (by decide +kernel)
  exact ⟨{ d := 6, a := 4 }, addrs vec, a, b, able_of (by decide +kernel), epochEnded_of (by decide +kernel), by decide +kernel,
    h, Option.isNone_iff_eq_none.1 k⟩

/-- The last word of the scratchpad. -/
theorem test_witness_scalarStore : ∃ f s loc locs s1, Able 0xC1 f s ∧ (scalarAddr f s).toNat % scalarBytes f = 0 ∧
    translateElem s (threadSpace s) .store (scalarAddr f s).toNat (scalarBytes f) = .ok (loc :: locs, s1) := by
  let s := setX vec 4 (BitVec.ofNat 64 (cspBase + 0x1FFFF8))
  obtain ⟨a, b, h, k⟩ := ok_of (p := fun l _ => l.head? == some (cspBase + 0x1FFFF8))
    (x := translateElem s (threadSpace s) .store (cspBase + 0x1FFFF8) 8) (by decide +kernel)
  cases a with
  | nil => exact absurd k (by decide)
  | cons l ls => exact ⟨{ d := 6, a := 4 }, s, l, ls, b, able_of (by decide +kernel), by decide +kernel, h⟩

theorem test_witness_misaligned :
    let s := setX vec 4 (BitVec.ofNat 64 (cspBase + 7))
    (scalarAddr { d := 6, a := 4 } s).toNat % scalarBytes { d := 6, a := 4 } ≠ 0 ∧ Able 0xC0 { d := 6, a := 4 } s ∧
      Able 0xC1 { d := 6, a := 4 } s ∧ EpochEnded s ∧ ∀ r ∈ amoRows, Able r.2.2 { d := 6, a := 4 } s := by
  intro s
  have h : amoRows.all (fun r => able r.2.2 { d := 6, a := 4 } s) = true := by decide +kernel
  exact ⟨by decide +kernel, able_of (by decide +kernel), able_of (by decide +kernel), epochEnded_of (by decide +kernel),
    fun r hr => able_of (List.all_eq_true.1 h r hr)⟩

/-- A load or a store whose elements all translate, with no line that fails. -/
def Sys2Proof.Tests.elemsOk (acc : Access) (ps : List ElemAt) (s : State) : Bool :=
  match translateElems (threadSpace s) acc ps s with
  | (_, none, s1) => (elemsDataError s1 []).isNone && s1.t.live && !ps.isEmpty &&
    (match translateElems (threadSpace s) acc ps s with
      | (locs, _, _) => (elemsDataError s1 locs).isNone)
  | _ => false

theorem Sys2Proof.Tests.elemsOk_of {acc : Access} {ps : List ElemAt} {s : State} (h : elemsOk acc ps s = true) :
    ∃ locs s1, translateElems (threadSpace s) acc ps s = (locs, none, s1) ∧ elemsDataError s1 locs = none := by
  unfold elemsOk at h
  split at h
  · rename_i l s1 e
    simp only [e, Bool.and_eq_true, Option.isNone_iff_eq_none] at h
    exact ⟨l, s1, e, h.2⟩
  · exact absurd h (by simp)

theorem Sys2Proof.Tests.loads_of {r : LRow} {f : Form} {s : State} (h : able r.opc f s = true) (d : isDet s = false)
    (c : r.can f s) (e : elemsOk .load (r.places f s) s = true) :
    ∃ f s locs s1, Able r.opc f s ∧ EpochEnded s ∧ r.can f s ∧
      translateElems (threadSpace s) .load (r.places f s) s = (locs, none, s1) ∧ elemsDataError s1 locs = none := by
  obtain ⟨l, s1, h1, h2⟩ := elemsOk_of e
  exact ⟨f, s, l, s1, able_of h, epochEnded_of d, c, h1, h2⟩

theorem Sys2Proof.Tests.stores_of {r : SRow} {f : Form} {s : State} (h : able r.opc f s = true) (c : r.can f s)
    (e : elemsOk .store (r.places f s) s = true) :
    ∃ f s locs s1, Able r.opc f s ∧ r.can f s ∧
      translateElems (threadSpace s) .store (r.places f s) s = (locs, none, s1) := by
  obtain ⟨l, s1, h1, -⟩ := elemsOk_of e
  exact ⟨f, s, l, s1, able_of h, c, h1⟩

/-- Sixteen elements of 16 bits, one block; addresses, and stream 0 of un16 bound to byte 256 with 64 elements. -/
def Sys2Proof.Tests.vmem : State :=
  let s := run (.vsetty { d := 17 }) (addrs vec)
  let s := withArch s { s.t.arch with vl := 16 }
  run (.sbind { d := 0, a := 5, b := 7 }) (setX s 7 (BitVec.ofNat 64 (64 + 17 * 2 ^ 27 + 4 * 2 ^ 32)))

theorem test_witness_vectorLoad : ∀ r ∈ loadRows, ∃ f s locs s1, Able r.opc f s ∧ EpochEnded s ∧ r.can f s ∧
    translateElems (threadSpace s) .load (r.places f s) s = (locs, none, s1) ∧ elemsDataError s1 locs = none := by
  dsimp only [loadRows]
  refine all_cons (loads_of (f := { d := 6, a := 5 }) (s := vmem) (by decide +kernel) (by decide +kernel) (by decide +kernel)
    (by decide +kernel)) ?_
  iterate 2 refine all_cons (loads_of (f := { d := 6, a := 5, fmt := 14 }) (s := vmem) (by decide +kernel) (by decide +kernel)
    (by decide +kernel) (by decide +kernel)) ?_
  refine all_cons (loads_of (f := { d := 6, a := 5 }) (s := vmem) (by decide +kernel) (by decide +kernel) (by decide +kernel)
    (by decide +kernel)) ?_
  refine all_cons (loads_of (f := { d := 6, b := 0, mod := 3 }) (s := vmem) (by decide +kernel) (by decide +kernel)
    ⟨by decide +kernel, by decide +kernel, by decide +kernel, by decide +kernel, by decide +kernel, .un16, by decide +kernel⟩
    (by decide +kernel)) ?_
  exact all_nil

theorem test_witness_vectorStore : ∀ r ∈ storeRows, ∃ f s locs s1, Able r.opc f s ∧ r.can f s ∧
    translateElems (threadSpace s) .store (r.places f s) s = (locs, none, s1) := by
  dsimp only [storeRows]
  refine all_cons (stores_of (f := { d := 6, a := 5 }) (s := vmem) (by decide +kernel) (by decide +kernel) (by decide +kernel)) ?_
  refine all_cons (stores_of (f := { d := 6, a := 5, fmt := 14 }) (s := vmem) (by decide +kernel) (by decide +kernel)
    (by decide +kernel)) ?_
  refine all_cons (stores_of (f := { d := 6, b := 0, mod := 3 }) (s := vmem) (by decide +kernel) (by decide +kernel)
    (by decide +kernel)) ?_
  refine all_cons (stores_of (f := { d := 1, a := 5 }) (s := addrs fns) (by decide +kernel) (by decide +kernel)
    (by decide +kernel)) ?_
  exact all_nil

/-- A stream access with vl = 0. -/
theorem test_witness_emptyStream :
    let s := withArch vmem { vmem.t.arch with vl := 0 }
    let f : Form := { d := 6, b := 0, mod := 3 }
    Able 0xC2 f s ∧ Able 0xC3 f s ∧ EpochEnded s ∧ f.mod.toNat % 4 = 3 ∧ spanOk s f.d (vtrType s).width = true ∧
      scaleReg f = 0 ∧ f.fmt = 0 ∧ s.t.arch.vl = 0 ∧ streamType (getStream s f.b) ≠ none :=
  ⟨able_of (by decide +kernel), able_of (by decide +kernel), epochEnded_of (by decide +kernel), by decide +kernel,
    by decide +kernel, by decide +kernel, by decide +kernel, by decide +kernel, by decide +kernel⟩

theorem test_witness_fnld : ∃ f s h locs s1, Able 0x81 f s ∧ EpochEnded s ∧ shapeOf (getX s f.b) = some h ∧
    h.p ≤ degreeCap h.d ∧ poolShort s f.d (h.granules s.t.arch.vl) = false ∧
    (activeList s f ≠ [] → (getX s f.a).toNat % h.bytes = 0) ∧
    translateElems (threadSpace s) .load ((activeList s f).map (fnElemAt (getX s f.a) h)) s = (locs, none, s1) ∧
    elemsDataError s1 locs = none := by
  let s := setX (addrs floats) 7 0x12
  let h : Shape := { d := 2, p := 1, nodal := false, f64 := false }
  obtain ⟨l, s1, h1, h2⟩ := elemsOk_of (acc := .load) (s := s)
    (ps := (activeList s { d := 1, a := 5, b := 7 }).map (fnElemAt (getX s 5) h)) (by decide +kernel)
  exact ⟨{ d := 1, a := 5, b := 7 }, s, h, l, s1, able_of (by decide +kernel), epochEnded_of (by decide +kernel),
    by decide +kernel, by decide +kernel, by decide +kernel, by decide +kernel, h1, h2⟩

/-- Four i32 elements, and at byte 256 the sparse record of 0, 7, 0, 9. -/
def Sys2Proof.Tests.sparse : State :=
  let s := addrs elems
  let s := withArch s { s.t.arch with mfr := 0x100000 }
  { s with u := { s.u with csp := Memory.writeN s.u.csp 256 (sparseRecord .i32 [0, 7, 0, 9]) } }

/-- The clauses of the sparse load after its checks. -/
def Sys2Proof.Tests.sparseOk (f : Form) (s s1 : State) (hl : List Nat) : Bool :=
  let n := fieldAt (hl.map (viewByte s1)) 0 4 - 16
  let a := packedBase 12 f s
  sparseHeaderOk (vtrType s) s.t.arch.vl (hl.map (viewByte s1)) &&
    okThen (translateRun (threadSpace s) .load n (a + 16) s1) (fun bl s2 =>
      let mb := ceilDiv s.t.arch.vl 8
      let mask := viewValue s2 (bl.take mb)
      popCount s.t.arch.vl mask == fieldAt (hl.map (viewByte s1)) 8 4 && decide (mask < 2 ^ s.t.arch.vl) &&
        (dataError s2 a (hl ++ bl.take mb)).isNone &&
        (elemsDataError s2 (sparseElems (vtrType s).width mask (bl.drop mb) (a + 16 + mb) (activeList s f))).isNone)

theorem test_witness_sparseLoad : ∃ f s hl s1 bl s2, Able 0xC2 f s ∧ EpochEnded s ∧ f.mod.toNat % 4 = 0 ∧
    accessEnc 0xC2 f s = 12 ∧ accessIllegal 0xC2 12 f s = false ∧ accessConfig 0xC2 12 f s = false ∧ s.t.arch.vl ≠ 0 ∧
    packedBase 12 f s % 16 = 0 ∧ translateRun (threadSpace s) .load 16 (packedBase 12 f s) s = .ok (hl, s1) ∧
    sparseHeaderOk (vtrType s) s.t.arch.vl (hl.map (viewByte s1)) = true ∧
    let n := fieldAt (hl.map (viewByte s1)) 0 4 - 16
    translateRun (threadSpace s) .load n (packedBase 12 f s + 16) s1 = .ok (bl, s2) ∧
    let mb := ceilDiv s.t.arch.vl 8
    let mask := viewValue s2 (bl.take mb)
    popCount s.t.arch.vl mask = fieldAt (hl.map (viewByte s1)) 8 4 ∧ mask < 2 ^ s.t.arch.vl ∧
    dataError s2 (packedBase 12 f s) (hl ++ bl.take mb) = none ∧
    elemsDataError s2 (sparseElems (vtrType s).width mask (bl.drop mb) (packedBase 12 f s + 16 + mb) (activeList s f)) =
      none := by
  let f : Form := { d := 6, a := 5, fmt := 13 }
  obtain ⟨hl, s1, h, k⟩ := ok_of (p := fun hl s1 => sparseOk f sparse s1 hl)
    (x := translateRun (threadSpace sparse) .load 16 (packedBase 12 f sparse) sparse) (by decide +kernel)
  simp only [sparseOk, Bool.and_eq_true] at k
  obtain ⟨bl, s2, h', k'⟩ := ok_of k.2
  simp only [Bool.and_eq_true, Option.isNone_iff_eq_none, beq_iff_eq, decide_eq_true_eq] at k'
  exact ⟨f, sparse, hl, s1, bl, s2, able_of (by decide +kernel), epochEnded_of (by decide +kernel), by decide +kernel,
    by decide +kernel, by decide +kernel, by decide +kernel, by decide +kernel, by decide +kernel, h, k.1,
    h', k'.1.1.1, k'.1.1.2, k'.1.2, k'.2⟩

theorem test_witness_sparseStore : ∃ f s locs s1, Able 0xC3 f s ∧ f.mod.toNat % 4 = 0 ∧ accessEnc 0xC3 f s = 12 ∧
    accessIllegal 0xC3 12 f s = false ∧ accessConfig 0xC3 12 f s = false ∧ s.t.arch.vl ≠ 0 ∧ packedBase 12 f s % 16 = 0 ∧
    let bytes := sparseRecord (vtrType s) ((List.range s.t.arch.vl).map (getV s f.d (vtrType s).width))
    let rsv := 16 * bitsAt s.t.arch.mfr.toNat 16 16
    translateRun (threadSpace s) .store rsv (packedBase 12 f s) s = .ok (locs, s1) ∧ bytes.length ≤ rsv ∧
    (storeLines (makeStore f.cls.toNat
      [(locs.zip bytes).map (fun p => ({ loc := p.1, val := p.2, mask := 0xFF } : StoreByte))])).length ≤ 1024 := by
  let f : Form := { d := 2, a := 5, fmt := 13 }
  let s := withArch sparse { sparse.t.arch with mfr := 0x40000 }
  let bytes := sparseRecord (vtrType s) ((List.range s.t.arch.vl).map (getV s f.d (vtrType s).width))
  obtain ⟨l, s1, h, k⟩ := ok_of (p := fun l _ => decide ((storeLines (makeStore f.cls.toNat
      [(l.zip bytes).map (fun p => ({ loc := p.1, val := p.2, mask := 0xFF } : StoreByte))])).length ≤ 1024))
    (x := translateRun (threadSpace s) .store (16 * bitsAt s.t.arch.mfr.toNat 16 16) (packedBase 12 f s) s) (by decide +kernel)
  exact ⟨f, s, l, s1, able_of (by decide +kernel), by decide +kernel, by decide +kernel, by decide +kernel, by decide +kernel,
    by decide +kernel, by decide +kernel, h, by decide +kernel, of_decide_eq_true k⟩

theorem test_witness_mfrset : Able 0xC6 { d := 6, a := 5 } (setX vec 5 0x1C000C) ∧ mfrOk (getX (setX vec 5 0x1C000C) 5) = true :=
  ⟨able_of (by decide +kernel), by decide +kernel⟩

/-- Stream 7 of f64, with a negative stride. -/
theorem test_witness_sbind :
    let f : Form := { d := 7, a := 5, b := 4 }
    let s := xs 8 (BitVec.ofNat 64 (1 * 2 ^ 27 + (2 ^ 32 - 8) * 2 ^ 32)) vec
    Able 0xC7 f s ∧ streamFmtOk (bitsAt (getX s f.b).toNat 27 5) = true ∧ ElemTy.ofCode (bitsAt (getX s f.b).toNat 27 5) = some .f64 ∧
      (getX s f.a).toNat % (ElemTy.f64.width / 8) = 0 ∧
      signedOf 32 (bitsAt (getX s f.b).toNat 32 32) % ((ElemTy.f64.width / 8 : Nat) : Int) = 0 :=
  ⟨able_of (by decide +kernel), by decide +kernel, by decide +kernel, by decide +kernel, by decide +kernel⟩

/-- A value that mfr may not hold; a stream of no type, a base of f64 that is not aligned, and a stride that is not. -/
theorem test_witness_formatFaults :
    mfrOk (getX (setX vec 5 15) 5) = false ∧ Able 0xC6 { d := 6, a := 5 } (setX vec 5 15) ∧
      let f : Form := { d := 7, a := 5, b := 4 }
      let s (a : W64) (ty stride : Nat) : State := xs a (BitVec.ofNat 64 (ty * 2 ^ 27 + stride * 2 ^ 32)) vec
      Able 0xC7 f (s 8 7 8) ∧ streamFmtOk (bitsAt (getX (s 8 7 8) f.b).toNat 27 5) = false ∧
      Able 0xC7 f (s 4 1 8) ∧ (getX (s 4 1 8) f.a).toNat % (ElemTy.f64.width / 8) ≠ 0 ∧
      Able 0xC7 f (s 8 1 4) ∧ signedOf 32 (bitsAt (getX (s 8 1 4) f.b).toNat 32 32) % ((ElemTy.f64.width / 8 : Nat) : Int) ≠ 0 ∧
      running mcc = true ∧ mcc.t.slot = 8 ∧ mcc.t.arch.vp = none :=
  ⟨by decide +kernel, able_of (by decide +kernel), able_of (by decide +kernel), by decide +kernel, able_of (by decide +kernel),
    by decide +kernel, able_of (by decide +kernel), by decide +kernel, by decide +kernel, by decide +kernel, by decide +kernel⟩

theorem test_witness_sfree : Able 0xC8 { d := 7 } vec := able_of (by decide +kernel)

theorem test_witness_setvl : Able 0x40 { d := 6, a := 5 } vec ∧ Able 0x40 { d := 6, b := 31, c := 127, imm := true } vec ∧
    poolTooSmall vec = false := ⟨able_of (by decide +kernel), able_of (by decide +kernel), by decide +kernel⟩

/-- Requests at the maximum, one above it, and above a maximum that is less than a block (R90). -/
theorem test_witness_grant : grantOf 256 256 64 = 256 ∧ grantOf 257 256 64 = 256 ∧ grantOf 300 200 64 = 192 ∧
    grantOf 300 20 64 = 20 := by decide +kernel

/-- Each count that `vcfg` takes, and counts beside them. -/
theorem test_witness_vcfg : Able 0x41 { a := 5 } vec ∧
    (∀ n ∈ [8, 16, 32, 64], (getX (setX vec 5 (BitVec.ofNat 64 n)) 5).toNat ∈ [8, 16, 32, 64]) ∧
    ∀ n ∈ [0, 7, 9, 63, 65], (getX (setX vec 5 (BitVec.ofNat 64 n)) 5).toNat ∉ [8, 16, 32, 64] :=
  ⟨able_of (by decide +kernel), by decide +kernel, by decide +kernel⟩

theorem test_witness_vsetty : Able 0x42 { d := 19, a := 21, b := 28 } vec ∧ ElemTy.ofCode (19 : Field).toNat = some .un64 :=
  ⟨able_of (by decide +kernel), by decide +kernel⟩

/-- A thread with nothing read ahead. -/
theorem test_witness_streamsInOrder : ∀ n : Field, (getStream vmem n).ahead = [] := by decide +kernel

/-- A thread with i32 offsets 0, 4, 8 and 4 in V[7], and one in a block whose group is elements 1 and 3. -/
def Sys2Proof.Tests.offsets : State := setV elems 7 32 [(0, 0), (1, 4), (2, 8), (3, 4)]
def Sys2Proof.Tests.inBlock : State := withArch elems { elems.t.arch with
  vp := some { vpc := [0, 4, 8, 4], run := 14, joinPc := 64, group := 10, count := 0 } }

theorem test_witness_vpfetch :
    let f : Form := { a := 7, b := 5 }
    Able 0x7B f offsets ∧ fmtFits f offsets = true ∧ spanOk offsets f.a (elemType f offsets).width = true ∧
      (elemType f offsets).isFloat = false ∧ activeList offsets f = [0, 1, 2, 3] ∧
      ∀ i ∈ activeList offsets f, (getX offsets f.b +
        BitVec.ofInt 64 (signedOf (elemType f offsets).width (getV offsets f.a (elemType f offsets).width i))).toNat % 4 = 0 :=
  ⟨able_of (by decide +kernel), by decide +kernel, by decide +kernel, by decide +kernel, by decide +kernel, by decide +kernel⟩

/-- No element is active: the block is over at once. -/
theorem test_witness_vpfetch_empty :
    let s := withArch offsets { offsets.t.arch with vl := 0 }
    Able 0x7B { a := 7, b := 5 } s ∧ activeList s { a := 7, b := 5 } = [] := ⟨able_of (by decide +kernel), by decide +kernel⟩

theorem test_witness_vpjoin : Able 0x7C {} inBlock ∧ inBlock.t.arch.vp ≠ none := ⟨able_of (by decide +kernel), by decide +kernel⟩

theorem test_witness_bp : ∀ m ∈ [(0 : BitVec 5), 1, 2], Able 0x31 { d := 1, c := 1, mod := m, imm := true } inBlock ∧
    inBlock.t.slot ≠ 8 ∧ inBlock.t.arch.vp ≠ none ∧ m.toNat % 4 ≠ 3 := by
  have h : [(0 : BitVec 5), 1, 2].all (fun m => able 0x31 { d := 1, c := 1, mod := m, imm := true } inBlock && m.toNat % 4 != 3) =
    true := by decide +kernel
  intro m hm
  have k := List.all_eq_true.1 h m hm
  simp only [Bool.and_eq_true, bne_iff_ne] at k
  exact ⟨able_of k.1, by decide +kernel, by decide +kernel, k.2⟩

/-- In that block P[1] is set at both elements of the group; with P[2] set at one of them it splits, and element 2 is the least
above element 1. -/
theorem test_witness_bp_splits :
    let v : Vp := { vpc := [0, 4, 8, 4], run := 14, joinPc := 64, group := 10, count := 0 }
    inBlock.t.arch.vp = some v ∧ bitsAt (predBits inBlock 1) 1 1 = bitsAt (predBits inBlock 1) 3 1 ∧
      lowestVp v = 1 ∧ (∀ j, j < 1 → bitsAt v.group j 1 = 0) ∧
      let s := withArch inBlock { inBlock.t.arch with pc := 4, p := inBlock.t.arch.p.set 2 2 }
      bitsAt (predBits s 2) 1 1 ≠ bitsAt (predBits s 2) 3 1 ∧
      (run (.bp { d := 2, c := 2, imm := true }) s).t.arch.vp =
        some { vpc := [0, 12, 8, 8], run := 14, joinPc := 64, group := 12, count := 0 } ∧
      (run (.bp { d := 2, c := 2, imm := true }) s).t.arch.pc = 8 := by decide +kernel

/-- One form for each way to be illegal: the other kind of thread, not of a block's subset, a register at vnreg, a constant;
and `tlbinv` in U mode. -/
theorem test_witness_illegal : running vec = true ∧ running inBlock = true ∧
    (∃ r, opRow? 0xA1 = some r ∧ kindOk vec r = false) ∧ (inBlock.t.arch.vp.isSome = true ∧ vpLegal 0x40 {} = false) ∧
    (∃ r, opRow? 0x43 = some r ∧ vregsOk vec r { d := 32 } = false) ∧ constsOk 0x42 {} = false ∧ vec.t.mode = .user ∧
    vec.t.arch.vp = none :=
  ⟨by decide +kernel, by decide +kernel, ⟨_, rfl, by decide +kernel⟩, ⟨by decide +kernel, by decide +kernel⟩,
    ⟨_, rfl, by decide +kernel⟩, by decide +kernel, by decide +kernel, by decide +kernel⟩

/-- An AMO that translates and whose line does not fail, after the stores that go before it. -/
theorem test_witness_amo : ∀ r ∈ amoRows, ∃ f s loc locs s1, Able r.2.2 f s ∧ CanonicalMemory s ∧ EpochEnded s ∧
    isDet s = false ∧ (getX s f.a).toNat % scalarBytes f = 0 ∧
    translateElem (openStrip (commit s) 1) (threadSpace s) .amo (getX s f.a).toNat (scalarBytes f) = .ok (loc :: locs, s1) ∧
    engineError (performNeeded (beforeAmo (Sys2Proof.Machine.orderOf f == 2) f.cls.toNat (loc :: locs)) s1) (getX s f.a).toNat
      (loc :: locs) = none := by
  let f : Form := { d := 6, a := 4, b := 5 }
  have h : amoRows.all (fun r => able r.2.2 f (addrs vec)) = true := by decide +kernel
  obtain ⟨a, s1, e, k⟩ := ok_of (p := fun l s1 => !l.isEmpty &&
      (engineError (performNeeded (beforeAmo (Sys2Proof.Machine.orderOf f == 2) f.cls.toNat l) s1) (cspBase + 64) l).isNone)
    (x := translateElem (openStrip (commit (addrs vec)) 1) (threadSpace (addrs vec)) .amo (cspBase + 64) 8) (by decide +kernel)
  simp only [Bool.and_eq_true, Option.isNone_iff_eq_none] at k
  cases a with
  | nil => exact absurd k.1 (by decide)
  | cons l ls =>
    exact fun r hr => ⟨f, addrs vec, l, ls, s1, able_of (List.all_eq_true.1 h r hr),
      ⟨by decide +kernel, by decide +kernel, by decide +kernel⟩, epochEnded_of (by decide +kernel), by decide +kernel,
      by decide +kernel, e, k.2⟩

/-- The started thread in a deterministic launch. -/
def Sys2Proof.Tests.det : State := mapPart vec 0 (fun p =>
  { p with launches := p.launches.map (fun l => { l with record := setNth l.record 43 1 }) })

/-- A fence of the widest classes at each side of die scope, and an epoch fence. -/
theorem test_witness_fence :
    (∀ m ∈ [(3 : BitVec 5), 4, 12, 20], Able 0xD6 { a := 5, mod := m } (setX vec 5 0xFFFF)) ∧ isDet vec = false ∧
      bitsAt (getX (setX vec 5 0xFFFF) 5).toNat 16 48 = 0 ∧ isDet det = true ∧ Able 0xD6 { mod := 4 } det ∧
      4 ≤ scopeOf { mod := 4 } ∧ scopeOf { mod := 3 } < 4 ∧ Able 0xD6 { mod := 3 } det := by
  have h : [(3 : BitVec 5), 4, 12, 20].all (fun m => able 0xD6 { a := 5, mod := m } (setX vec 5 0xFFFF)) = true := by
    decide +kernel
  exact ⟨fun m hm => able_of (List.all_eq_true.1 h m hm), by decide +kernel, by decide +kernel, by decide +kernel,
    able_of (by decide +kernel), by decide +kernel, by decide +kernel, able_of (by decide +kernel)⟩

theorem test_witness_stend : Able 0xDA {} vec ∧ Able 0xDA { mod := 13 } vec ∧ Sys2Proof.Machine.orderOf {} = 0 ∧ Sys2Proof.Machine.orderOf { mod := 13 } ≠ 0 :=
  ⟨able_of (by decide +kernel), able_of (by decide +kernel), by decide +kernel, by decide +kernel⟩

/-- As many stores outstanding as `waitc` names. -/
theorem test_witness_waitc :
    let s := run (.st { d := 5, a := 4 }) (addrs vec)
    let f : Form := { b := 16 }
    Able 0xD7 f s ∧ openStores s.t + performingStores s.t = bitsAt (packedConst f) 4 4 ∧
      openCopies s.t + runningCopies s ≤ bitsAt (packedConst f) 8 4 ∧ openTileOps s ≤ bitsAt (packedConst f) 12 4 :=
  ⟨able_of (by decide +kernel), by decide +kernel, by decide +kernel, by decide +kernel⟩

/-- A timeline at the value asked for, and one below it. -/
theorem test_witness_tlwait :
    Able 0xD8 { d := 14, a := 5 } vec ∧ (getX vec 5).toNat ≤ timelineValue vec 14 ∧
      Able 0xD8 { d := 14, a := 5 } (setX vec 5 1) ∧ timelineValue (setX vec 5 1) 14 < (getX (setX vec 5 1) 5).toNat ∧
      suspendedOn (setX vec 5 1) 14 = none :=
  ⟨able_of (by decide +kernel), by decide +kernel, able_of (by decide +kernel), by decide +kernel, by decide +kernel⟩

/-- Channel 15 with one slot of 256 bytes at 0x1000, free and published; four elements of 32 bits in registers. -/
def Sys2Proof.Tests.chan (full : Nat) : State :=
  setChan elems 15 { Chan.unconfigured with base := 16, scount := 1, ssize := 1, full := full }

theorem test_witness_chsend :
    let f : Form := { d := 2, a := 15 }
    let s := chan 0
    let c := getChan s 15
    let o := chanOffset f s
    let st := makeStore 16 ((activeList s f).map (fun i =>
      elemStore (chanElem c (c.ppos + localSent s.t 15) o 32 i) (getV s f.d 32 i)))
    Able 0xCA f s ∧ (vtrType s).width = 32 ∧ spanOk s f.d 32 = true ∧ c.scount ≠ 0 ∧
      o + ceilDiv (s.t.arch.vl * 32) 8 ≤ c.slotBytes ∧ o % 64 = 0 ∧ (c.prod = 0xFF ∨ c.prod = s.t.slot) ∧
      c.full + localSent s.t 15 < c.scount ∧ (storeLines st).length ≤ 1024 :=
  ⟨able_of (by decide +kernel), by decide +kernel, by decide +kernel, by decide +kernel, by decide +kernel, by decide +kernel,
    by decide +kernel, by decide +kernel, by decide +kernel⟩

/-- The last offset of a slot. -/
theorem test_witness_chrecv :
    let f : Form := { d := 2, a := 15, b := 3 }
    let s := withArch (chan 1) { (chan 1).t.arch with vl := 16 }
    let c := getChan s 15
    let o := chanOffset f s
    Able 0xCB f s ∧ spanOk s f.d (vtrType s).width = true ∧ c.scount ≠ 0 ∧
      o + ceilDiv (s.t.arch.vl * (vtrType s).width) 8 = c.slotBytes ∧ o % 64 = 0 ∧ (c.cons = 0xFF ∨ c.cons = s.t.slot) ∧
      localRecvd s.t 15 < c.full :=
  ⟨able_of (by decide +kernel), by decide +kernel, by decide +kernel, by decide +kernel, by decide +kernel, by decide +kernel,
    by decide +kernel⟩

/-- No slot, and the largest ring at the end of the scratchpad. -/
theorem test_witness_chcfg :
    let f : Form := { d := 15, a := 5, b := 4 }
    let n := 64
    let k := 127
    let s := xs (BitVec.ofNat 64 (cspBytes vec - n * k * 256)) (BitVec.ofNat 64 (n + k * 2 ^ 16)) vec
    Able 0xCC f vec ∧ chanBusy (drain (commit vec)) 15 = false ∧ bitsAt (getX vec f.b).toNat 0 7 = 0 ∧ Able 0xCC f s ∧
      chanBusy (drain (commit s)) 15 = false ∧ bitsAt (getX s f.b).toNat 7 9 = 0 ∧ bitsAt (getX s f.b).toNat 25 39 = 0 ∧
      bitsAt (getX s f.b).toNat 0 7 = n ∧ bitsAt (getX s f.b).toNat 16 9 = k ∧ (getX s f.a).toNat % 256 = 0 ∧
      (getX s f.a).toNat + n * k * 256 = cspBytes s :=
  ⟨able_of (by decide +kernel), by decide +kernel, by decide +kernel, able_of (by decide +kernel), by decide +kernel,
    by decide +kernel, by decide +kernel, by decide +kernel, by decide +kernel, by decide +kernel, by decide +kernel⟩

/-- A read of tscr1 in S mode, of a well-formed handle, of a timeline and of the dictionary. -/
theorem test_witness_machineRead : ∀ r ∈ machineReadRows, ∃ f s, Able r.opc f s ∧ r.can f s := by
  dsimp only [machineReadRows]
  let s := { vec with t := { vec.t with mode := Mode.super } }
  refine all_cons ⟨{ d := 6, b := 2, c := 7, imm := true }, s, able_of (by decide +kernel), by decide +kernel⟩ ?_
  refine all_cons ⟨{ d := 6, a := 5 }, setX vec 5 0x10000FFF, able_of (by decide +kernel), by decide +kernel⟩ ?_
  refine all_cons ⟨{ d := 6, a := 15 }, vec, able_of (by decide +kernel), trivial⟩ ?_
  refine all_cons ⟨{ d := 6, a := 5 }, setX vec 5 255, able_of (by decide +kernel), trivial⟩ ?_
  exact all_nil

/-- A thread in S mode, of each kind. -/
def Sys2Proof.Tests.handler (s : State) : State := { s with t := { s.t with mode := .super } }

/-- The number of a control register in an operand form. -/
def Sys2Proof.Tests.cr (n : Nat) : Form := { d := 6, b := BitVec.ofNat 7 (n / 128), c := BitVec.ofNat 7 n, imm := true }

/-- A write that the hypotheses of the control register statement let pass. -/
def Sys2Proof.Tests.writeOk (opc : Nat) (op : W64 → W64 → W64) (clr : Bool) (n : Nat) (s : State) : Bool :=
  let f := cr n
  let old := crRead s n
  let raw := (op old (getX s f.d)).toNat
  let m := crMasks n
  let hit := if clr then 0 else Nat.land (getX s f.d).toNat m.2.1
  let new := BitVec.ofNat 64 (Nat.land raw m.1 + Nat.land old.toNat (allBits - m.1 - m.2.1))
  able opc f s && crNumber f s == n && crAssigned (s.t.slot == 8) n && (s.t.mode == .super || !crGuarded n) &&
    Nat.land raw m.2.2 == 0 && !crExcluded s n new && (n != 0x30D || hit == 0)

/-- Registers of every group: of a vector thread, of both modes, of the trap set, of the unit and of the partition. -/
theorem test_witness_controlWrite : ∀ r ∈ controlWrites, ∀ n ∈ [0x002, 0x006, 0x011, 0x101, 0x107, 0x300, 0x307, 0x308],
    writeOk r.2.1 r.2.2.1 r.2.2.2.1 n (setX (handler vec) 6 1) = true ∨
      writeOk r.2.1 r.2.2.1 r.2.2.2.1 n (handler vec) = true := by
  have h : controlWrites.all (fun r => [0x002, 0x006, 0x011, 0x101, 0x107, 0x300, 0x307, 0x308].all (fun n =>
    writeOk r.2.1 r.2.2.1 r.2.2.2.1 n (setX (handler vec) 6 1) || writeOk r.2.1 r.2.2.1 r.2.2.2.1 n (handler vec))) = true := by
    decide +kernel
  intro r hr n hn
  exact Bool.or_eq_true_iff.1 (List.all_eq_true.1 (List.all_eq_true.1 h r hr) n hn)

/-- Each plain register of either kind of thread. -/
theorem test_witness_plainRegister :
    (∀ n ∈ [0x002, 0x003, 0x006, 0x100, 0x101, 0x106, 0x107], writeOk 0xF4 (fun _ v => v) false n (handler vec) = true) ∧
      (∀ n ∈ [0x004, 0x005, 0x021], writeOk 0xF4 (fun _ v => v) false n (setX (handler mcc) 6 257) = true ∨
        writeOk 0xF4 (fun _ v => v) false n (setX (handler mcc) 6 15) = true ∨
        writeOk 0xF4 (fun _ v => v) false n (handler mcc) = true) := by decide +kernel

/-- What U mode may not read or write, and a number that a kind of thread does not have. -/
theorem test_witness_privileged :
    Able 0xF3 (cr 0x100) vec ∧ crAssigned false 0x100 = true ∧ vec.t.mode = .user ∧ crHidden 0x100 = true ∧ vec.t.slot = 0 ∧
      (∀ r ∈ controlWrites, Able r.2.1 (cr 0x011) vec) ∧ crAssigned false 0x011 = true ∧ crGuarded 0x011 = true ∧
      crNumber (cr 0x011) vec = 0x011 ∧ crNumber (cr 0x100) vec = 0x100 ∧ Able 0xF3 (cr 0x004) vec ∧
      crNumber (cr 0x004) vec = 0x004 ∧ crAssigned false 0x004 = false ∧ ∀ r ∈ controlWrites, Able r.2.1 (cr 0x004) vec := by
  have h : controlWrites.all (fun r => able r.2.1 (cr 0x011) vec && able r.2.1 (cr 0x004) vec) = true := by decide +kernel
  refine ⟨able_of (by decide +kernel), by decide +kernel, by decide +kernel, by decide +kernel, by decide +kernel, ?_,
    by decide +kernel, by decide +kernel, by decide +kernel, by decide +kernel, able_of (by decide +kernel), by decide +kernel,
    by decide +kernel, ?_⟩
  · exact fun r hr => able_of (Bool.and_eq_true_iff.1 (List.all_eq_true.1 h r hr)).1
  · exact fun r hr => able_of (Bool.and_eq_true_iff.1 (List.all_eq_true.1 h r hr)).2

theorem test_witness_svc : Able 0xF7 { a := 5 } vec ∧ Able 0xF7 { a := 5 } (handler mcc) :=
  ⟨able_of (by decide +kernel), able_of (by decide +kernel)⟩

theorem test_witness_trap : Able 0xF8 { a := 5, b := 4 } vec ∧ getX (setX vec 5 1) 5 ≠ 0 ∧ getX vec 5 = 0 ∧
    Able 0xF8 { a := 5, b := 4 } (setX vec 5 1) :=
  ⟨able_of (by decide +kernel), by decide +kernel, by decide +kernel, able_of (by decide +kernel)⟩

theorem test_witness_brkpt : Able 0xFB { d := 127, a := 127, b := 127 } vec := able_of (by decide +kernel)

theorem test_witness_tret : Able 0xF9 {} (handler vec) ∧ (handler vec).t.mode = .super ∧
    bitsAt (handler vec).t.tstat.toNat 16 48 = 0 ∧ Able 0xF9 {} vec ∧ vec.t.mode = .user :=
  ⟨able_of (by decide +kernel), by decide +kernel, by decide +kernel, able_of (by decide +kernel), by decide +kernel⟩

theorem test_witness_roundTrip : Able 0xF7 { a := 5 } vec ∧ exec (.svc { a := 5 }) vec = .next (run (.svc { a := 5 }) vec) ∧
    Able 0xF9 {} (run (.svc { a := 5 }) vec) ∧ bitsAt vec.t.tstat.toNat 16 48 = 0 :=
  ⟨able_of (by decide +kernel), rfl, able_of (by decide +kernel), by decide +kernel⟩

/-- One cached translation of ASID 0, named by each kind. -/
def Sys2Proof.Tests.cached : State := mapPart (handler vec) 0 (fun p =>
  { p with tlb := [{ agent := 0, asid := 0, level := 0, vpn := 3, leaf := 1 }] })

/-- The machine in which `tlbinv` has removed the entries. -/
def Sys2Proof.Tests.removed (s : State) : State := markSaved (getX s 5) (getX s 4) 1 s.u.part (dropAheads s.u.part
  (dropNamed (getX s 5) (getX s 4) (openStrip (drain (commit s)) 1)))

/-- `tlbinv` may go on to its removal. -/
def Sys2Proof.Tests.invOk (k : Nat) (s : State) : Bool :=
  able 0xFA { a := 5, b := 4 } s && (s.t.mode == .super) && decide (s.u.part < 4) && (bitsAt (getX s 4).toNat 16 2 == k) &&
    (bitsAt (getX s 4).toNat 18 46 == 0) && ((getX s 5).toNat % 2 ^ 16 == 0)

/-- Each kind, with one entry named; and with a store of another thread that still holds it pinned. -/
theorem test_witness_tlbinv : ∀ k ∈ [(0 : Nat), 1, 2],
    let s := xs 0x30000 (BitVec.ofNat 64 (k * 2 ^ 16)) cached
    let p : Store := { cls := 0, elems := [], full := [], pins := [{ asid := 0, level := 0, vpn := 3, age := 0 }] }
    let h : State := { s with u := { s.u with threads := [{ Thread.none with slot := 3, performing := [.store p] }] } }
    invOk k s = true ∧ s.t.wait = .none ∧ ((myPart s).tlb.filter (fun e => e.named (getX s 5) (getX s 4))).length = 1 ∧
      (openStrip (drain (commit s)) 1).t.wcb = [] ∧ pinsClear (getX s 5) (getX s 4) 1 (removed s) = true ∧ invOk k h = true ∧
      h.t.wait = .none ∧ (openStrip (drain (commit h)) 1).t.wcb = [] ∧
      pinsClear (getX h 5) (getX h 4) 1 (removed h) = false ∧
      let w : State := { h with t := { h.t with wait := .pins 0 0 1 } }
      invOk k w = true ∧ pinsClear (getX w 5) (getX w 4) 1 (markSaved (getX w 5) (getX w 4) 1 w.u.part w) = false ∧
        pinsClear (getX s 5) (getX s 4) 1 (markSaved (getX s 5) (getX s 4) 1 s.u.part
          { s with t := { s.t with wait := .pins 0 0 1 } }) = true := by decide +kernel

/-- A pin holds a removal up that comes after it and not one before; it does so in the buffer of a switched-out unit and in
what a complete unit has left, and not in a saved open strip. -/
theorem test_pins :
    let st : Store := { cls := 0, elems := [], full := [], pins := [{ asid := 0, level := 0, vpn := 3, age := 4 }] }
    let none_ := Thread.none
    let other (t : Thread) (away : Option Nat) : State :=
      { cached with units := [{ UnitCtx.empty with uid := 9, cluster := away, threads := [t] }] }
    let left := mapPart cached 0 (fun p => { p with launches := [{ probeLaunch false with leftover := [(0, [(1, .store st)])] }] })
    let clear (n : Nat) (s : State) : Bool := pinsClear 0x30000 0 n s
    clear 4 (other { none_ with performing := [.store st] } (some 1)) = true ∧
      clear 5 (other { none_ with performing := [.store st] } (some 1)) = false ∧
      clear 5 (other { none_ with wcb := [(1, .store st)] } none) = false ∧
      clear 5 (other { none_ with strip := { none_.strip with items := [.store st] } } none) = true ∧
      clear 5 (other { none_ with strip := { none_.strip with items := [.store st] } } (some 1)) = false ∧
      clear 5 left = false ∧ clear 4 left = true := by decide +kernel

/-- A kind that does not exist, a page that is not aligned, and an epoch that has not ended. -/
theorem test_witness_tlbinv_refused :
    let s := xs 1 0x30000 cached
    able 0xFA { a := 5, b := 4 } s = true ∧ bitsAt (getX s 4).toNat 16 2 = 3 ∧ (getX s 5).toNat % 2 ^ 16 ≠ 0 ∧
      let d : State := { cached with t := { cached.t with epoch := 1, wcb := [(1, .tile 1)] } }
      invOk 0 d = true ∧ (openStrip (drain (commit d)) 1).t.wcb ≠ [] := by decide +kernel

theorem test_witness_dload : ∃ f s image s1, Able 0xF0 f s ∧ EpochEnded s ∧ (getX s f.a).toNat % 2048 = 0 ∧
    readImage (getX s f.a).toNat (openStrip (drain (commit s)) 1) = .ok (image, s1) := by
  let s := setX vec 5 (BitVec.ofNat 64 (cspBase + 0x1FF800))
  obtain ⟨a, s1, e, -⟩ := ok_of (p := fun _ _ => true) (x := readImage (cspBase + 0x1FF800) (openStrip (drain (commit s)) 1))
    (by decide +kernel)
  exact ⟨{ a := 5 }, s, a, s1, able_of (by decide +kernel), epochEnded_of (by decide +kernel), by decide +kernel, e⟩

/-- A load with no measurement asked for, and one of a job that asks for a digest and lists none. -/
theorem test_witness_dsync : Able 0xF1 {} vec ∧ measured (drain (commit vec)) = true ∧
    let s := mapPart { vec with t := { vec.t with image := some [] } } 0 (fun p => setJob p { Job.unset 0 with par := 0x10400 })
    Able 0xF1 {} s ∧ measured (drain (commit s)) = false :=
  ⟨able_of (by decide +kernel), by decide +kernel, able_of (by decide +kernel), by decide +kernel⟩

/-- An entry of `ld` with three holes, at an address that is not aligned. -/
theorem test_witness_dictionaryLoad :
    let s := { vec with t := { vec.t with dict := vec.t.dict.set 0 0xC000000000000000 } }
    let s := setX s 5 (BitVec.ofNat 64 (cspBase + 7))
    let v := expandEntry (dictEntry s 0) 6 5 0
    running s = true ∧ s.t.dictLoading = false ∧ dictEntry s 0 ≠ undefinedEntry ∧ decodeLong v = some (.ld { d := 6, a := 5 }) ∧
      checkForm 0xC0 { d := 6, a := 5 } (withWord s v) = none ∧ isDet s = false ∧
      (scalarAddr { d := 6, a := 5 } s).toNat % scalarBytes { d := 6, a := 5 } ≠ 0 ∧
      (run (.dictionaryWord 0 6 5 0) s).t.tval = v := by decide +kernel

/-- An entry of `add` with three holes; a pending load; an undefined entry. -/
theorem test_witness_dictionaryWord :
    let s := { vec with t := { vec.t with dict := vec.t.dict.set 0 0x0100000000000000 } }
    running s = true ∧ s.t.dictLoading = false ∧ dictEntry s 0 ≠ undefinedEntry ∧
      decodeLong (expandEntry (dictEntry s 0) 6 5 4) = some (.add { d := 6, a := 5, b := 4 }) ∧
      checkForm 0x01 { d := 6, a := 5, b := 4 } (withWord s (expandEntry (dictEntry s 0) 6 5 4)) = none ∧
      dictEntry s 255 = undefinedEntry :=
  ⟨by decide +kernel, by decide +kernel, by decide +kernel, by decide +kernel, by decide +kernel, by decide +kernel⟩

theorem test_witness_stl : Able 0xA0 { d := 5, a := 4, b := 6 } mcc ∧ Able 0xA0 { d := 4, a := 4, b := 4, mod := 3 } mcc :=
  ⟨able_of (by decide +kernel), able_of (by decide +kernel)⟩

/-- An MCC thread with grants of 2 by 2 by 4, the last of K; descriptors of two inputs of f32 at X[5] and X[4] and of two
outputs at X[7] and after it, 64 bytes a row; t1 a dense tile and t2 a factored tile of rank 1, each of 2 by 2. -/
def Sys2Proof.Tests.tiles : State :=
  let at_ (n : Nat) : W64 := BitVec.ofNat 64 (cspBase + n)
  let desc (row ty : Nat) : List Byte := leBytes 8 (cspBase + row) ++ leBytes 8 0 ++ leBytes 4 64 ++ leBytes 4 0 ++ leBytes 8 ty
  let csp := Memory.writeN mcc.u.csp 1024 (desc 4096 2 ++ desc 8192 2 ++ desc 12288 0 ++ desc 16384 0)
  let s : State := { mcc with u := { mcc.u with csp := csp } }
  let s := withArch s { s.t.arch with tgrant := 0x8040202 }
  let s := setX (setX (setX (setX s 5 (at_ 1024)) 4 (at_ 1056)) 7 (at_ 1088)) 8 0x02020001
  setTile (setHdr (setTile (setHdr s 1 (denseHdr 2 2 false)) 1 (zeroTile (denseHdr 2 2 false))) 2 (factorHdr 2 2 2 1)) 2
    (zeroTile (factorHdr 2 2 2 1))

/-- The hypotheses of a tile instruction that issues, with its own conditions as a test. -/
def Sys2Proof.Tests.issueOk (r : TRow) (f : Form) (can : List Opnd → Bool) : Bool :=
  match readDescs (r.descs f tiles) (openStrip (commit tiles) 1) with
  | none => false
  | some (xs, s1) =>
    let os := xs.map (fun x => x.2)
    able r.opc f tiles && can os && (chanChecks s1 os).isNone &&
      (match r.hdr f tiles os with
        | none => true
        | some h => !tileShort tiles f.d.toNat h (r.source f))

/-- Some operands meet the hypotheses of the row. -/
def Sys2Proof.Tests.Issues (r : TRow) : Prop :=
  ∃ f s xs s1, Able r.opc f s ∧ EpochEnded s ∧ s.u.tl15Issued - s.u.tl15 < 32 ∧
    readDescs (r.descs f s) (openStrip (commit s) 1) = some (xs, s1) ∧ r.can f s (xs.map (fun x => x.2)) ∧
    chanChecks s1 (xs.map (fun x => x.2)) = none ∧
    ∀ h, r.hdr f s (xs.map (fun x => x.2)) = some h → tileShort s f.d.toNat h (r.source f) = false

theorem Sys2Proof.Tests.issues_of {r : TRow} (f : Form) (can : List Opnd → Bool) (h : issueOk r f can = true)
    (c : ∀ os, can os = true → r.can f tiles os) : Issues r := by
  unfold issueOk at h
  split at h
  · exact absurd h (by simp)
  · rename_i xs s1 e
    simp only [Bool.and_eq_true, Option.isNone_iff_eq_none] at h
    refine ⟨f, tiles, xs, s1, able_of h.1.1.1, epochEnded_of (by decide +kernel), by decide +kernel, e, c _ h.1.1.2, h.1.2, ?_⟩
    intro k hk
    have h2 := h.2
    rw [hk] at h2
    simpa using h2

theorem test_witness_tileIssue : ∀ r ∈ tileIssueRows, Issues r := by
  dsimp only [tileIssueRows]
  refine all_cons (issues_of { d := 3, a := 8 } (fun _ => true) (by decide +kernel) (fun _ _ => by dsimp only; decide +kernel)) ?_
  refine all_cons (issues_of { d := 1 } (fun _ => true) (by decide +kernel) (fun _ _ => trivial)) ?_
  refine all_cons (issues_of { d := 3, a := 5 } (fun _ => true) (by decide +kernel) (fun _ _ => trivial)) ?_
  refine all_cons (issues_of { d := 3, a := 5, b := 9 } (fun _ => true) (by decide +kernel) (fun _ _ => by dsimp only; decide +kernel)) ?_
  refine all_cons (issues_of { d := 1, a := 7 } (fun _ => true) (by decide +kernel) (fun _ _ => by dsimp only; decide +kernel)) ?_
  refine all_cons (issues_of { d := 2, a := 7 } (fun _ => true) (by decide +kernel) (fun _ _ => by dsimp only; decide +kernel)) ?_
  refine all_cons (issues_of { d := 1, a := 5, b := 4 } (fun os =>
    (match os with
      | [a, b] => !tmmBad tiles a b && !(a.isInt && b.isInt)
      | _ => false)) (by decide +kernel) ?_) ?_
  · intro os h
    split at h
    · rename_i a b
      simp only [Bool.and_eq_true, Bool.not_eq_true'] at h
      refine ⟨by decide +kernel, fun _ _ => ⟨by decide +kernel, by decide +kernel, ?_⟩, ?_⟩
      · show false = (a.isInt && b.isInt)
        exact h.2.symm
      · intro x y e
        cases e
        exact h.1
    · exact absurd h (by simp)
  refine all_cons (issues_of { d := 3, a := 2, b := 2 } (fun _ => true) (by decide +kernel) (fun _ _ => by dsimp only; decide +kernel)) ?_
  refine all_cons (issues_of { d := 3, a := 2, b := 2 } (fun _ => true) (by decide +kernel) (fun _ _ => by dsimp only; decide +kernel)) ?_
  refine all_cons (issues_of { d := 3, a := 1, b := 1 } (fun _ => true) (by decide +kernel) (fun _ _ => by dsimp only; decide +kernel)) ?_
  refine all_cons (issues_of { d := 3, a := 2 } (fun _ => true) (by decide +kernel) (fun _ _ => by dsimp only; decide +kernel)) ?_
  refine all_cons (issues_of { d := 3, a := 1, b := 8 } (fun _ => true) (by decide +kernel) (fun _ _ => by dsimp only; decide +kernel)) ?_
  refine all_cons (issues_of { d := 1, a := 7, b := 9, fmt := 2 } (fun _ => true) (by decide +kernel) (fun _ _ => by dsimp only; decide +kernel)) ?_
  exact all_nil

/-- The same with rank policy 2 and no rank allowed. -/
def Sys2Proof.Tests.capped : State := { setX tiles 9 1 with t := { (setX tiles 9 1).t with tmode := 2 } }

theorem test_witness_tileSync : ∀ r ∈ tileSyncRows, ∃ f s, Able r.opc f s ∧ r.can f s ∧ s.u.tsusp = none ∧
    s.u.tl15Issued ≤ s.u.tl15 ∧ (s.t.performing = [] ∧ stripEffects s = [] ∧ s.t.wcb = []) ∧ f.d.toNat < 16 ∧
    tileShort s f.d.toNat (r.result f s).hdr (r.source f) = false := by
  dsimp only [tileSyncRows]
  refine all_cons ⟨{ d := 3, a := 2 }, capped, able_of (by decide +kernel), by decide +kernel, by decide +kernel,
    by decide +kernel, by decide +kernel, by decide +kernel, by decide +kernel⟩ ?_
  refine all_cons ⟨{ d := 3, a := 1, b := 9 }, capped, able_of (by decide +kernel), by decide +kernel, by decide +kernel,
    by decide +kernel, by decide +kernel, by decide +kernel, by decide +kernel⟩ ?_
  refine all_cons ⟨{ d := 3, a := 2, b := 2 }, capped, able_of (by decide +kernel),
    ⟨by decide +kernel, epochEnded_of (by decide +kernel), by decide +kernel, by decide +kernel, by decide +kernel,
      by decide +kernel⟩, by decide +kernel, by decide +kernel, by decide +kernel, by decide +kernel, by decide +kernel⟩ ?_
  refine all_cons ⟨{ d := 3, a := 2, b := 2 }, capped, able_of (by decide +kernel),
    ⟨by decide +kernel, epochEnded_of (by decide +kernel), by decide +kernel, by decide +kernel, by decide +kernel,
      by decide +kernel⟩, by decide +kernel, by decide +kernel, by decide +kernel, by decide +kernel, by decide +kernel⟩ ?_
  exact all_nil

/-- An MCC thread with a fence in its strip, at a recompression. -/
theorem test_witness_tileSyncWaits :
    let s : State := { capped with t := { capped.t with strip := { capped.t.strip with items := [.fence 1] } } }
    Able 0xAA { d := 3, a := 2 } s ∧ (getHdr s 2).kind = 2 ∧ s.u.tsusp = none ∧ s.u.tl15Issued ≤ s.u.tl15 ∧
      ¬(s.t.performing = [] ∧ stripEffects s = [] ∧ s.t.wcb = []) :=
  ⟨able_of (by decide +kernel), by decide +kernel, by decide +kernel, by decide +kernel, by decide +kernel⟩

/-- No operation outstanding, and one that is issued. -/
theorem test_witness_tileReads :
    Able 0xAF { d := 6, a := 2 } tiles ∧ lastWriter tiles 2 = none ∧ Able 0xB0 {} tiles ∧ tiles.u.tsusp = none ∧
      tiles.u.tl15Issued ≤ tiles.u.tl15 ∧
      let s := run (.tzero { d := 1 }) tiles
      Able 0xB0 {} s ∧ s.u.tsusp = none ∧ s.u.tl15 < s.u.tl15Issued :=
  ⟨able_of (by decide +kernel), by decide +kernel, able_of (by decide +kernel), by decide +kernel, by decide +kernel,
    able_of (by decide +kernel), by decide +kernel, by decide +kernel⟩
/-- Job 0 registered with quota 100, depth 5 and the member die 0 of group 0; bytes at X[5], and X[4] 64 bytes after them. -/
def Sys2Proof.Tests.holding (bytes : List Byte) : State :=
  let csp := Memory.writeN vec.u.csp 1024 bytes
  let s : State := { vec with u := { vec.u with csp := csp } }
  let s := mapPart s 0 (fun p => setJob p { Job.unset 0 with
    par := 0x640850, groups := [(0, [{ campus := 0, rack := 0, rank := 0, die := 0 }])] })
  xs (BitVec.ofNat 64 (cspBase + 1088)) (BitVec.ofNat 64 (cspBase + 1024)) s

/-- The operands: a the record, b the second record. -/
def Sys2Proof.Tests.cmd : Form := { d := 3, a := 4, b := 5 }

/-- Two tensor records of four elements of f32, at bytes 4096 and 8192 of the scratchpad. -/
def Sys2Proof.Tests.copying : State :=
  let tensor (at_ : Nat) : List Byte := leBytes 8 (cspBase + at_) ++ leBytes 20 4 ++ leBytes 20 1 ++ leBytes 8 0 ++
    leBytes 8 (2 * 2 ^ 8 + 2 ^ 16)
  holding (tensor 4096 ++ tensor 8192)

theorem test_witness_copy : ∃ f s s1 c, Able 0xC9 f s ∧ EpochEnded s ∧ s.t.strip.cmds.length < 16 ∧
    ∃ db sb sa, (getX s f.a).toNat % 64 = 0 ∧ (getX s f.b).toNat % 64 = 0 ∧
      readRecord s (getX s f.a).toNat 64 = .ok (db, sa) ∧ readRecord sa (getX s f.b).toNat 64 = .ok (sb, s1) ∧
      (tensorOf sb).reason true = none ∧ (tensorOf db).reason false = none ∧
      shapesDiffer (tensorOf db) (tensorOf sb) = false ∧
      (hullsMeet (tensorOf db) (tensorOf sb) = true → sameShape (tensorOf db) (tensorOf sb) = true) ∧
      c = Cmd.copy f.d.toNat db sb f.cls.toNat := by
  obtain ⟨db, sa, h, k⟩ := ok_of (p := fun db sa => okThen (readRecord sa (cspBase + 1088) 64) (fun sb _ =>
      (((tensorOf sb).reason true).isNone && ((tensorOf db).reason false).isNone) &&
        (!shapesDiffer (tensorOf db) (tensorOf sb) && !hullsMeet (tensorOf db) (tensorOf sb))))
    (x := readRecord copying (cspBase + 1024) 64) (by decide +kernel)
  obtain ⟨sb, s1, h2, k2⟩ := ok_of k
  simp only [Bool.and_eq_true, Option.isNone_iff_eq_none, Bool.not_eq_true'] at k2
  exact ⟨cmd, copying, s1, _, able_of (by decide +kernel), epochEnded_of (by decide +kernel), by decide +kernel, db, sb, sa,
    by decide +kernel, by decide +kernel, h, h2, k2.1.1, k2.1.2, k2.2.1, fun e => absurd e (by rw [k2.2.2]; decide), rfl⟩

/-- Two records: of no dimension; the second alone valid; of different shapes; in one place with different types. -/
theorem test_witness_copyRefused :
    let t (at_ n ty : Nat) : List Byte := leBytes 8 (cspBase + at_) ++ leBytes 20 n ++ leBytes 20 1 ++ leBytes 8 0 ++
      leBytes 8 (ty * 2 ^ 8 + 2 ^ 16)
    let reads (rs : List Byte) (p : TensorRec → TensorRec → Bool) : Bool := okThen (readRecord (holding rs) (cspBase + 1024) 64)
      (fun db sa => okThen (readRecord sa (cspBase + 1088) 64) (fun sb _ => p (tensorOf db) (tensorOf sb)))
    let both (d c : TensorRec) : Bool := (c.reason true).isNone && (d.reason false).isNone
    Able 0xC9 cmd (holding []) ∧ isDet (holding []) = false ∧ (getX (holding []) 4).toNat = cspBase + 1024 ∧
      (getX (holding []) 5).toNat = cspBase + 1088 ∧
      reads [] (fun _ c => c.reason true == some 6) = true ∧
      reads (leBytes 64 0 ++ t 8192 4 2) (fun d c => (c.reason true).isNone && d.reason false == some 6) = true ∧
      reads (t 4096 3 2 ++ t 8192 4 2) (fun d c => both d c && shapesDiffer d c) = true ∧
      reads (t 4096 4 2 ++ t 4096 4 13) (fun d c => both d c && !shapesDiffer d c && hullsMeet d c && !sameShape d c) = true ∧
      Able 0xC9 cmd (xs 0 1 vec) ∧ Able 0xC9 cmd (xs 1 0 vec) :=
  ⟨able_of (by decide +kernel), by decide +kernel, by decide +kernel, by decide +kernel, by decide +kernel, by decide +kernel,
    by decide +kernel, by decide +kernel, able_of (by decide +kernel), able_of (by decide +kernel)⟩

/-- A collective of f32 elements of group 0, with sixteen commands already in the strip. -/
theorem test_witness_coll : ∃ f s s1 c, Able 0xE7 f s ∧ EpochEnded s ∧ 16 ≤ s.t.strip.cmds.length ∧
    ∃ desc, (getX s f.a).toNat % 64 = 0 ∧ readRecord s (getX s f.a).toNat 64 = .ok (desc, s1) ∧
      collBad (myJob s1) (myDie s1) desc = false ∧ c = Cmd.coll (f.d.toNat - 16) desc (myDie s1) := by
  let s0 := holding (leBytes 37 0 ++ leBytes 1 2)
  let s : State := { s0 with t := { s0.t with strip := { s0.t.strip with cmds := List.replicate 16 (.coll 0 [] 0) } } }
  obtain ⟨b, s1, h, k⟩ := ok_of (p := fun b s1 => !collBad (myJob s1) (myDie s1) b)
    (x := readRecord s (cspBase + 1024) 64) (by decide +kernel)
  exact ⟨{ cmd with d := 16, b := 0 }, s, s1, _, able_of (by decide +kernel), epochEnded_of (by decide +kernel), by decide +kernel, b,
    by decide +kernel, h, by simpa using k, rfl⟩

/-- A packet to the device's own rank, as a launch of one unit. -/
theorem test_witness_xsend : ∃ f s s1 c, Able 0xE8 f s ∧ EpochEnded s ∧ ∃ rec_, (getX s f.a).toNat % 64 = 0 ∧
    readRecord s (getX s f.a).toNat 128 = .ok (rec_, s1) ∧ recordReason s1 s1.u.part (myJobId s1) rec_ false false = none ∧
    childDepth s1 ≤ (myJob s1).depthLimit ∧ (getX s f.b).toNat ∈ (myJob s1).ranks ∧
    c = Cmd.xsend (getX s f.b).toNat { job := myJobId s1, src := (myJob s1).rank, depth := childDepth s1, bytes := rec_ } := by
  let s := holding (probeRecord false)
  obtain ⟨b, s1, h, k⟩ := ok_of (p := fun b s1 => ((recordReason s1 s1.u.part (myJobId s1) b false false).isNone &&
      decide (childDepth s1 ≤ (myJob s1).depthLimit)) && decide (0 ∈ (myJob s1).ranks))
    (x := readRecord s (cspBase + 1024) 128) (by decide +kernel)
  simp only [Bool.and_eq_true, Option.isNone_iff_eq_none, decide_eq_true_eq] at k
  exact ⟨{ cmd with d := 0, b := 0 }, s, s1, _, able_of (by decide +kernel), epochEnded_of (by decide +kernel), b, by decide +kernel, h,
    k.1.1, k.1.2, k.2, rfl⟩

/-- A launch whose record passes its checks. -/
def Sys2Proof.Tests.Launches (s : State) (refused : Option Nat) : Prop :=
  ∃ rec_ s1, Able 0xE1 { d := 3, a := 4 } s ∧ EpochEnded s ∧ (∀ b, s.t.wait ≠ .pool b) ∧ (getX s 4).toNat % 64 = 0 ∧
    readRecord (openStrip (commit s) 1) (getX s 4).toNat 128 = .ok (rec_, s1) ∧
    recordReason s1 s1.u.part (myJobId s1) rec_ true true = none ∧ childDepth s1 ≤ (myJob s1).depthLimit ∧
    refusal (myPart s1) (myJobId s1) = refused

theorem Sys2Proof.Tests.launches_of {s : State} {refused : Option Nat} (h : (able 0xE1 { d := 3, a := 4 } s && s.t.epoch == 0 &&
    (s.t.wait == .none) && (getX s 4).toNat % 64 == 0 && okThen (readRecord (openStrip (commit s) 1) (getX s 4).toNat 128)
      (fun b s1 => (recordReason s1 s1.u.part (myJobId s1) b true true).isNone &&
        decide (childDepth s1 ≤ (myJob s1).depthLimit) && (refusal (myPart s1) (myJobId s1) == refused))) = true) :
    Launches s refused := by
  simp only [Bool.and_eq_true, beq_iff_eq] at h
  obtain ⟨b, s1, e, k⟩ := ok_of h.2
  simp only [Bool.and_eq_true, Option.isNone_iff_eq_none, decide_eq_true_eq, beq_iff_eq] at k
  exact ⟨b, s1, able_of h.1.1.1.1, epochEnded_first h.1.1.1.2, fun g e => by rw [h.1.1.2] at e; exact absurd e nofun, h.1.2, e,
    k.1.1, k.1.2, k.2⟩

/-- The job's quota is held by a launch that is not the thread's own. -/
def Sys2Proof.Tests.quotaHeld : State := mapPart (holding (probeRecord false)) 0 (fun p =>
  setJob { p with launches := p.launches ++ [{ probeLaunch false with entry := 7 }] } { Job.unset 0 with par := 0x20850 })

theorem test_witness_launch : Launches (holding (probeRecord false)) none ∧ Launches quotaHeld (some 1) ∧
    quotaIsOwn quotaHeld = false :=
  ⟨launches_of (by decide +kernel), launches_of (by decide +kernel), by decide +kernel⟩

/-- A deterministic launch whose thread has a store in the buffer of its epoch, before its `launch` and in it. -/
theorem test_witness_launchReleases :
    let st : Store := { cls := 0, elems := [], full := [], pins := [] }
    let s0 := mapPart (holding (probeRecord false)) 0 (fun p =>
      { p with launches := p.launches.map (fun l => { l with record := setNth l.record 43 1 }) })
    let s : State := { s0 with t := { s0.t with wcb := [(1, .store st)] } }
    let waiting : State := { s with t := { s.t with wait := .pool (probeRecord false) } }
    isDet s = true ∧ Launches s none ∧
      (okThen (readRecord (openStrip (commit s) 1) (getX s 4).toNat 128) (fun _ s1 => (drain s1).t.wcb != [])) = true ∧
      Able 0xE1 { d := 3, a := 4 } waiting ∧ EpochEnded waiting ∧ waiting.t.wait = .pool (probeRecord false) ∧
      refusal (myPart waiting) (myJobId waiting) = none ∧ (drain (openStrip (commit waiting) 1)).t.wcb ≠ [] :=
  ⟨by decide +kernel, launches_of (by decide +kernel), by decide +kernel, able_of (by decide +kernel),
    epochEnded_first rfl, rfl, by decide +kernel, by decide +kernel⟩

/-- An acceptance in the last partition, into a pool that has a launch already. -/
theorem test_witness_accepted :
    let rec_ := probeRecord false
    (∀ n ∈ [0, 3], (getJob (getPart quotaHeld n) 0).canc = false ∧
      (getCounter (getJob (getPart quotaHeld n) 0).graphs (recGraph rec_)).canc = false ∧
      (getCounter (getJob (getPart quotaHeld n) 0).phases (recPhase rec_)).canc = false) ∧
      (Creator.outside 0 0).parent = none ∧ freeEntry (getPart quotaHeld 0) = 1 := by decide +kernel

/-- The first of two threads to arrive, the last, and one whose generation is over. -/
def Sys2Proof.Tests.pair (arrived : List Nat) (w : Wait) (gen : Nat) : State :=
  { vec with
    t := { vec.t with wait := w }
    u := { vec.u with threads := [{ Thread.none with live := true, slot := 3 }], arrived := arrived, barGen := gen } }

theorem test_witness_bar :
    (∀ e ∈ [(([] : List Nat), Wait.none, 0), ([3], .none, 0), ([], .bar 0, 1)],
      Able 0xE0 {} (pair e.1 e.2.1 e.2.2) ∧ (pair e.1 e.2.1 e.2.2).t.slot < 16 ∧
        ∀ r ∈ (pair e.1 e.2.1 e.2.2).u.threads, r.slot ≠ (pair e.1 e.2.1 e.2.2).t.slot) ∧
      (∃ r ∈ (pair [] .none 0).u.threads, r.live = true ∧ r.slot ∉ (pair [] .none 0).u.arrived) ∧
      (∀ r ∈ (pair [3] .none 0).u.threads, r.live = true → r.slot ∈ (pair [3] .none 0).u.arrived) ∧
      (∀ g, (pair [] .none 0).t.wait ≠ .bar g) ∧ (∀ g, (pair [3] .none 0).t.wait ≠ .bar g) ∧
      (pair [] (.bar 0) 1).t.wait = .bar 0 ∧ (pair [] (.bar 0) 1).u.barGen ≠ 0 := by
  have h : [(([] : List Nat), Wait.none, 0), ([3], .none, 0), ([], .bar 0, 1)].all (fun e =>
      able 0xE0 {} (pair e.1 e.2.1 e.2.2) && decide ((pair e.1 e.2.1 e.2.2).t.slot < 16) &&
        (pair e.1 e.2.1 e.2.2).u.threads.all (fun r => r.slot != (pair e.1 e.2.1 e.2.2).t.slot)) = true := by decide +kernel
  refine ⟨fun e he => ?_, by decide +kernel, by decide +kernel, fun g e => absurd e nofun, fun g e => absurd e nofun,
    by decide +kernel, by decide +kernel⟩
  have k := List.all_eq_true.1 h e he
  simp only [Bool.and_eq_true, decide_eq_true_eq, List.all_eq_true, bne_iff_ne, ne_eq] at k
  exact ⟨able_of k.1.1, k.1.2, k.2⟩

/-- Graph 0 of the job of a thread whose launch carries graph 0: done at reset and waiting for itself; graph 5, not done. -/
def Sys2Proof.Tests.graphs : State := mapPart (xs 0x20000005 0x20000006 vec) 0 (fun p => setJob p { Job.unset 0 with
  graphs := [{ num := 5, outstanding := 1, completed := 0, canc := false, fault := false }] })

theorem test_witness_join :
    Able 0xE2 { d := 6, a := 4 } graphs ∧ parseHandle (getX graphs 4).toNat = some (2, 0, 6) ∧
      (joinWord graphs (getX graphs 4)).isSome = true ∧ joinsItself graphs 2 0 6 = false ∧
      Able 0xE2 { d := 6, a := 5 } graphs ∧ parseHandle (getX graphs 5).toNat = some (2, 0, 5) ∧
      joinWord graphs (getX graphs 5) = none ∧ joinsItself graphs 2 0 5 = false :=
  ⟨able_of (by decide +kernel), by decide +kernel, by decide +kernel, by decide +kernel, able_of (by decide +kernel),
    by decide +kernel, by decide +kernel, by decide +kernel⟩

theorem test_witness_cancel : Able 0xE3 { a := 4 } graphs ∧ (parseHandle (getX graphs 4).toNat).isSome = true ∧
    Able 0xE3 { a := 6 } graphs ∧ parseHandle (getX graphs 6).toNat = none :=
  ⟨able_of (by decide +kernel), by decide +kernel, able_of (by decide +kernel), by decide +kernel⟩

theorem test_witness_ends : Able 0xE5 {} vec ∧ Able 0xE9 {} vec := ⟨able_of (by decide +kernel), able_of (by decide +kernel)⟩

/-- The most lanes that may be asked for. -/
theorem test_witness_lanepart : let s := setX vec 5 64
    Able 0xE6 { d := 6, a := 5 } s ∧ isDet s = false ∧ (getX s 5).toNat = 64 :=
  ⟨able_of (by decide +kernel), by decide +kernel, by decide +kernel⟩
/-! ### Witnesses: events -/

theorem Sys2Proof.Tests.some_of {α : Type} {x : Option α} {p : α → Bool} (h : x.any p = true) : ∃ a, x = some a ∧ p a = true := by
  cases x with
  | none => exact absurd h (by simp)
  | some a => exact ⟨a, rfl, h⟩

/-- The hypotheses on the machine and the thread that an event names. -/
def Sys2Proof.Tests.Focused (s : State) : Prop := PackageUp s ∧ focus (here s) s = some s ∧ s.t.live = true

theorem Sys2Proof.Tests.focused_of {s : State} (h : (s.powered && !s.bootFail && s.stage == 7 && s.u.uid != 0 &&
    decide (s.t.slot < 16) && s.t.live) = true) : Focused s := by
  simp only [Bool.and_eq_true, Bool.not_eq_true', beq_iff_eq, bne_iff_ne, ne_eq, decide_eq_true_eq] at h
  exact ⟨⟨h.1.1.1.1.1, h.1.1.1.1.2, h.1.1.1.2⟩, by simp [focus, here, h.1.1.2, h.1.2], h.2⟩

/-- The started thread with other fields. -/
def Sys2Proof.Tests.withT (f : Thread → Thread) : State := { vec with t := f vec.t }

/-- A boundary: an old strip, a group after 64 instructions, an engine fault of the thread's own, a single step. -/
theorem test_witness_boundary :
    let vp : Vp := { vpc := [0, 4], run := 3, joinPc := 8, group := 1, count := 64 }
    let a := withArch vec { vec.t.arch with vp := some vp }
    let x : Suspend := { sub := 5, tval := 64, telem := 0, issuer := 0, delivered := false }
    let b := setCsusp vec 14 (some x)
    let c := withT (fun t => { t with stepDue := true })
    Focused vec ∧ atBoundary vec = true ∧ Focused a ∧ atBoundary a = true ∧ a.t.arch.vp = some vp ∧ 64 ≤ vp.count ∧
      Focused b ∧ atBoundary b = true ∧ b.t.mode = .user ∧ dueFault b = some x ∧ Focused c ∧ atBoundary c = true ∧
      c.t.stepDue = true :=
  ⟨focused_of (by decide +kernel), by decide +kernel, focused_of (by decide +kernel), by decide +kernel, rfl, by decide +kernel,
    focused_of (by decide +kernel), by decide +kernel, rfl, by decide +kernel, focused_of (by decide +kernel), by decide +kernel, rfl⟩

theorem test_witness_ready : let s := withT (fun t => { t with wait := .timeline 0 0 })
    Focused s ∧ onCluster s = true ∧ waitReady s = true := ⟨focused_of (by decide +kernel), by decide +kernel, by decide +kernel⟩

/-- An image in the scratchpad, with and without a measurement that fails, and one at an address that does not translate. -/
def Sys2Proof.Tests.imaged (at_ : Nat) (mreq : Bool) : State :=
  mapPart (withT (fun t => { t with dictPending := true })) 0 (fun p => setJob { p with
    launches := [{ probeLaunch false with
      record := leBytes 8 cspBase ++ leBytes 8 at_ ++ (probeRecord false).drop 16 }] }
    { Job.unset 0 with par := if mreq then 0x10400 else 0x10000 })

theorem test_witness_image : (∀ m ∈ [false, true], Focused (imaged (cspBase + 2048) m) ∧
      (imaged (cspBase + 2048) m).t.dictPending = true ∧ (imaged (cspBase + 2048) m).t.mode = .user ∧
      ∃ image s2, readImage (recDict (myRecord (imaged (cspBase + 2048) m))) (imaged (cspBase + 2048) m) = .ok (image, s2) ∧
        measured { s2 with t := { s2.t with image := some image } } = !m) ∧
    Focused (imaged 2048 false) ∧
      ∃ e, readImage (recDict (myRecord (imaged 2048 false))) (imaged 2048 false) = .error e := by
  refine ⟨fun m _ => ?_, focused_of (by decide +kernel), ?_⟩
  · cases m
    · obtain ⟨i, s2, h, k⟩ := ok_of (p := fun i s2 => measured { s2 with t := { s2.t with image := some i } } == true)
        (x := readImage (recDict (myRecord (imaged (cspBase + 2048) false))) (imaged (cspBase + 2048) false)) (by decide +kernel)
      exact ⟨focused_of (by decide +kernel), rfl, rfl, i, s2, h, beq_iff_eq.1 k⟩
    · obtain ⟨i, s2, h, k⟩ := ok_of (p := fun i s2 => measured { s2 with t := { s2.t with image := some i } } == false)
        (x := readImage (recDict (myRecord (imaged (cspBase + 2048) true))) (imaged (cspBase + 2048) true)) (by decide +kernel)
      exact ⟨focused_of (by decide +kernel), rfl, rfl, i, s2, h, beq_iff_eq.1 k⟩
  · have h : (match readImage (recDict (myRecord (imaged 2048 false))) (imaged 2048 false) with
        | .ok _ => false
        | .error _ => true) = true := by decide +kernel
    split at h
    · exact absurd h (by decide)
    · rename_i e he
      exact ⟨e, he⟩

/-- Stream 7 of four f32 elements in the scratchpad: the last of them; and a base that is not aligned. -/
def Sys2Proof.Tests.streaming (base : Nat) : State :=
  setStream vec 7 { base := BitVec.ofNat 64 base, word := BitVec.ofNat 64 (4 + 2 * 2 ^ 27 + 4 * 2 ^ 32), cons := 0, ahead := [] }

theorem test_witness_streamReadAhead :
    (∀ b ∈ [cspBase + 64, cspBase + 66], Focused (streaming b) ∧ EpochEnded (streaming b) ∧
      (streaming b).u.cluster.isSome = true ∧ (streaming b).t.away = false ∧
      streamType (getStream (streaming b) 7) = some .f32 ∧ (getStream (streaming b) 7).cons ≤ 3 ∧
      3 < bitsAt (getStream (streaming b) 7).word.toNat 0 27 ∧ ∀ e ∈ (getStream (streaming b) 7).ahead, e.1 ≠ 3) ∧
    (streamElem (getStream (streaming (cspBase + 66)) 7) .f32 3).va %
      (streamElem (getStream (streaming (cspBase + 66)) 7) .f32 3).bytes ≠ 0 ∧
    let s := streaming (cspBase + 64)
    let e := streamElem (getStream s 7) .f32 3
    e.va % e.bytes = 0 ∧ ∃ locs s2, translateRun (threadSpace s) .load e.bytes e.va s = .ok (locs, s2) ∧
      dataError s2 e.va locs = none := by
  obtain ⟨l, s2, h, k⟩ := ok_of (p := fun l s2 => (dataError s2 (cspBase + 76) l).isNone)
    (x := translateRun (threadSpace (streaming (cspBase + 64))) .load 4 (cspBase + 76) (streaming (cspBase + 64))) (by decide +kernel)
  refine ⟨?_, by decide +kernel, by decide +kernel, l, s2, h, Option.isNone_iff_eq_none.1 k⟩
  have g : ∀ b ∈ [cspBase + 64, cspBase + 66], (streaming b).u.cluster.isSome = true ∧ (streaming b).t.away = false ∧
      streamType (getStream (streaming b) 7) = some .f32 ∧ (getStream (streaming b) 7).cons ≤ 3 ∧
      3 < bitsAt (getStream (streaming b) 7).word.toNat 0 27 ∧ ∀ e ∈ (getStream (streaming b) 7).ahead, e.1 ≠ 3 := by
    decide +kernel
  have d : [cspBase + 64, cspBase + 66].all (fun b => let s := streaming b
    (s.powered && !s.bootFail && s.stage == 7 && s.u.uid != 0 && decide (s.t.slot < 16) && s.t.live) && !isDet s) = true := by
    decide +kernel
  intro b hb
  have k := List.all_eq_true.1 d b hb
  have k := Bool.and_eq_true_iff.1 k
  exact ⟨focused_of k.1, epochEnded_of (by simpa using k.2), g b hb⟩

/-- vtr's reset value, and one that sets a reserved bit; the suspended engines of a handler. -/
theorem test_witness_engineWrites :
    let x : Suspend := { sub := 5, tval := 64, telem := 0, issuer := 8, delivered := true }
    let s := setCsusp { handler vec with u := { vec.u with tsusp := some x } } 0 (some x)
    Nat.land 0x34002 (2 ^ 64 - 2 ^ 19 + 2 ^ 5) = 0 ∧ vtrBad 0x34002 = false ∧ Nat.land 0x34022 (2 ^ 64 - 2 ^ 19 + 2 ^ 5) ≠ 0 ∧
      Focused s ∧ s.t.mode = .super ∧ s.u.tsusp.isSome = true ∧ (getCsusp s 0).isSome = true :=
  ⟨by decide +kernel, by decide +kernel, by decide +kernel, focused_of (by decide +kernel), rfl, by decide +kernel, by decide +kernel⟩

/-- A store of one byte, behind a store of another class and before a fence. -/
def Sys2Proof.Tests.oneByte (cls : Nat) : Store :=
  { cls := cls, elems := [[{ loc := cspBase + 64 * cls, val := 7, mask := 0xFF }]], full := [], pins := [] }

theorem test_witness_performs :
    let s := withT (fun t => { t with performing := [.store (oneByte 1), .store (oneByte 2), .fence 6] })
    let d : State := { det with t := { det.t with performing := [.fence 1, .store (oneByte 2)] } }
    let f := withT (fun t => { t with performing := [.fence 6, .store (oneByte 1)] })
    let c := withT (fun t => { t with performing := [.fence 6, .cmd 1 (.copy 14 [] [] 0)] })
    let w : State := { c with t := { c.t with wcb := [(1, .tile 1)] } }
    Focused s ∧ s.t.performing = [.store (oneByte 1)] ++ .store (oneByte 2) :: [.fence 6] ∧
      blockedBy [.store (oneByte 1)] (oneByte 2) = false ∧ isDet s = false ∧ (oneByte 2).elems ≠ [] ∧
      Memory.wf s.mem = true ∧ Memory.wf s.u.csp = true ∧ s.units = [] ∧
      Focused d ∧ isDet d = true ∧ (oneByte 2).cls ≠ 16 ∧ Focused f ∧ Focused c ∧ Focused w ∧ c.t.wcb = [] ∧ w.t.wcb ≠ [] := by
  refine ⟨focused_of (by decide +kernel), rfl, by decide +kernel, by decide +kernel, by decide +kernel, by decide +kernel,
    by decide +kernel, by decide +kernel, focused_of (by decide +kernel), by decide +kernel, by decide +kernel,
    focused_of (by decide +kernel), focused_of (by decide +kernel), focused_of (by decide +kernel), by decide +kernel,
    by decide +kernel⟩

/-- A deterministic launch whose one thread has fenced its first epoch. -/
theorem test_witness_epochEnd :
    let s : State := { det with t := { det.t with epoch := 1 } }
    PackageUp s ∧ ((getPart s 0).launches.find? (fun l => l.entry == 0)).any (fun l =>
      epochOver s l ((allUnits s).filter (fun u => u.part == 0 && u.entry == 0 && u.gen == l.gen)) (l.epochs + 1)) = true :=
  ⟨⟨by decide +kernel, by decide +kernel, by decide +kernel⟩, by decide +kernel⟩

/-- Copies that start and end, and a tile operation that fires and completes. -/
def Sys2Proof.Tests.engines (started ended : Bool) : State :=
  let tensor (at_ : Nat) : List Byte := leBytes 8 (cspBase + at_) ++ leBytes 20 4 ++ leBytes 20 1 ++ leBytes 8 0 ++
    leBytes 8 (2 * 2 ^ 8 + 2 ^ 16)
  let s := run (.tzero { d := 1 }) tiles
  { s with u := { s.u with
    copies := [{ tl := 14, num := 1, dst := tensor 4096, src := tensor 8192, cls := 0, issuer := 8, started, done := 0, ended, saved := [] }]
    ops := s.u.ops.map (fun p => { p with fired := ended, done := ended }) } }

theorem test_witness_engines :
    (∃ s1, focusUnit vec.u.uid (engines false false) = some s1 ∧ (∃ c, headCopy s1 14 = some c ∧ c.started = false ∧
      (performCopy s1 c).stop = none) ∧ ∃ p, nextToFire s1 = some p) ∧
    (∃ s1, focusUnit vec.u.uid (engines true true) = some s1 ∧ (∃ c, headCopy s1 14 = some c ∧ c.ended = true) ∧
      ∃ p rest, s1.u.ops = p :: rest ∧ p.fired = true ∧ p.done = true) := by
  constructor
  · obtain ⟨s1, h, k⟩ := some_of (p := fun s1 => (headCopy s1 14).any (fun c => !c.started && (performCopy s1 c).stop.isNone) &&
      (nextToFire s1).isSome) (x := focusUnit vec.u.uid (engines false false)) (by decide +kernel)
    rw [Bool.and_eq_true] at k
    obtain ⟨c, hc, kc⟩ := some_of k.1
    simp only [Bool.and_eq_true, Bool.not_eq_true', Option.isNone_iff_eq_none] at kc
    exact ⟨s1, h, ⟨c, hc, kc⟩, Option.isSome_iff_exists.1 k.2⟩
  · obtain ⟨s1, h, k⟩ := some_of (p := fun s1 => (headCopy s1 14).any (fun c => c.ended) &&
      (s1.u.ops.head?).any (fun p => p.fired && p.done)) (x := focusUnit vec.u.uid (engines true true)) (by decide +kernel)
    rw [Bool.and_eq_true] at k
    obtain ⟨c, hc, kc⟩ := some_of k.1
    obtain ⟨p, hp, kp⟩ := some_of k.2
    rw [Bool.and_eq_true] at kp
    obtain ⟨rest, e⟩ := List.head?_eq_some_iff.1 hp
    exact ⟨s1, h, ⟨c, hc, kc⟩, p, rest, e, kp⟩

/-! ### Witnesses: Hornbeam -/

/-- Another launch of one unit that is not placed, of a priority. -/
def Sys2Proof.Tests.waits (prio : Nat) : Launch :=
  { probeLaunch false with entry := 9, order := 1, nextUnit := 0, frozen := some prio }

/-- A partition with frames for a unit and its thread, and that launch. -/
def Sys2Proof.Tests.asked (prio : Nat) : State := mapPart vec 0 (fun p => { p with
  launches := p.launches ++ [waits prio]
  ctx := [{ frame := 1, state := 0, kind := 1, flags := 1, slot := 0, handle := 0, unit := 0 },
    { frame := 2, state := 0, kind := 2, flags := 1, slot := 0, handle := 0, unit := 0 }] })

theorem test_witness_placement :
    let s := asked 5
    PackageUp s ∧ chosen s 0 = some (.fresh (waits 5)) ∧ 127 ∈ holders s 0 (waits 5) ∧
      findLaunch (getPart s 0) 9 1 = some (waits 5) ∧ recCores (waits 5).record = false ∧ recCspImg (waits 5).record = 0 ∧
      unplaced (waits 5) = true ∧ launchReady s 0 (waits 5) = true ∧
      (getPart s 0).launches.find? (fun l => l.entry == 9) = some (waits 5) ∧ hasPart s 0 = true :=
  ⟨⟨by decide +kernel, by decide +kernel, by decide +kernel⟩, by decide +kernel, by decide +kernel, by decide +kernel,
    by decide +kernel, by decide +kernel, by decide +kernel, by decide +kernel, by decide +kernel, by decide +kernel⟩

/-- A launch that waits for a cluster. -/
theorem test_witness_aging :
    let s := asked 5
    PackageUp s ∧ unplaced (waits 5) = true ∧ launchReady s 0 (waits 5) = true ∧
      (getPart s 0).launches.find? (fun l => l.entry == 9) = some (waits 5) :=
  ⟨⟨by decide +kernel, by decide +kernel, by decide +kernel⟩, by decide +kernel, by decide +kernel, by decide +kernel⟩

/-- A strip of 65,536 cycles. -/
theorem test_witness_oldStrip :
    let s := withT (fun t => { t with stripAge := 655360 })
    Focused s ∧ atBoundary s = true ∧ stripOld s = true ∧ stripOld vec = false :=
  ⟨focused_of (by decide +kernel), by decide +kernel, by decide +kernel, by decide +kernel⟩

theorem test_witness_threadStart :
    let s := withT (fun t => { t with wait := .start })
    let q := mapPart { vec with time := 1000007 } 0 (fun p => { p with quarantine := [(4095, 7)] })
    Focused s ∧ s.t.wait = .start ∧ s.u.cluster.isSome = true ∧ PackageUp q ∧
      (getPart q 0).quarantine.find? (fun x => x.1 == 4095) = some (4095, 7) ∧ 1000000 ≤ q.time - 7 :=
  ⟨focused_of (by decide +kernel), rfl, by decide +kernel, ⟨by decide +kernel, by decide +kernel, by decide +kernel⟩,
    by decide +kernel, by decide +kernel⟩

/-- Every cluster of the partition taken, the others by units of the thread's launch. -/
def Sys2Proof.Tests.full (prio : Nat) : State :=
  let s := asked prio
  { s with units := (List.range 127).map (fun n =>
    { UnitCtx.empty with uid := s.u.uid + 1 + n, gen := 1, cluster := some (n + 1), index := n }) }

/-- The launch that waits takes a unit of the other's, which runs at a lower priority. -/
theorem test_witness_preemption :
    let s := full 5
    let c := Candidate.fresh (waits 5)
    PackageUp s ∧ chosen s 0 = some c ∧ lacksCluster s 0 c = true ∧
      (firstVictim (getPart s 0) ((rivals s 0 c).filter (fun v =>
        decide (effPrio (getPart s 0) v.2 < effPrio (getPart s 0) c.launch)))).isSome = true :=
  ⟨⟨by decide +kernel, by decide +kernel, by decide +kernel⟩, by decide +kernel, by decide +kernel, by decide +kernel⟩

/-- A unit that has yielded to a launch of its own priority. -/
theorem test_witness_quantum :
    let s : State := { full 0 with u := { (full 0).u with yielding := true } }
    let c := Candidate.fresh (waits 0)
    PackageUp s ∧ chosen s 0 = some c ∧ lacksCluster s 0 c = true ∧
      (firstVictim (getPart s 0) ((rivals s 0 c).filter (outlasts s (getPart s 0) c))).any (fun v => v.1.uid == s.u.uid) = true :=
  ⟨⟨by decide +kernel, by decide +kernel, by decide +kernel⟩, by decide +kernel, by decide +kernel, by decide +kernel⟩

/-- A unit whose one thread waits, with no cluster for another launch. -/
theorem test_witness_idle :
    let s : State := { full 0 with t := { (full 0).t with wait := .bar 0 } }
    let c := Candidate.fresh (waits 0)
    PackageUp s ∧ chosen s 0 = some c ∧ lacksCluster s 0 c = true ∧ (unitAt s s.u.uid).any (fun v => v.part == 0) = true ∧
      ((rivals s 0 c).find? (fun w => w.1.uid == s.u.uid)).any (fun v => unitIdle s v.1) = true :=
  ⟨⟨by decide +kernel, by decide +kernel, by decide +kernel⟩, by decide +kernel, by decide +kernel, by decide +kernel,
    by decide +kernel⟩

theorem test_witness_reclaim : let s := { withT (fun t => { t with pend := 4 }) with time := 20000 }
    reclaimDue s = true ∧ Focused s ∧ isDet s = false ∧ s.t.pend ≠ 0 ∧ s.t.pend < s.t.own ∧ s.t.away = false ∧ s.u.cluster.isSome = true ∧
      s.t.wait ≠ .start :=
  ⟨by decide +kernel, focused_of (by decide +kernel), by decide +kernel, by decide +kernel, by decide +kernel, rfl,
    by decide +kernel, nofun⟩

/-- The unit switched out, its frames in DRAM and not; and a thread switched out alone. -/
def Sys2Proof.Tests.out (flags : Nat) : State :=
  let u : UnitCtx := { wholeUnit vec with cluster := none }
  let s : State := { vec with t := .none, u := .empty, units := [u] }
  let e : CtxEntry := { frame := 1, state := 2, kind := 2, flags := flags, slot := 0, handle := handleOf 0 1, unit := 0 }
  writeCtx 0 0 e (mapPart s 0 (fun p => { p with ctx := [e] }))

/-- Its frames in DRAM; its frames away; its thread out alone. -/
theorem test_witness_restore :
    let uid := vec.u.uid
    let a := withT (fun t => { t with away := true })
    let wanted (s : State) := (wantedFrames s 0).filter (fun w =>
      w.2.2.handle == handleOf (probeLaunch false).entry (probeLaunch false).gen && bitsAt w.2.2.flags 1 1 == 0)
    let c := Candidate.back (probeLaunch false) uid 0
    PackageUp (out 1) ∧ (unitAt (out 1) uid).any (fun u => u.cluster.isNone && (u.part == 0)) = true ∧ wanted (out 1) = [] ∧
      chosen (out 1) 0 = some c ∧ lacksCluster (out 1) 0 c = false ∧ 0 ∈ holders (out 1) 0 (probeLaunch false) ∧
      PackageUp (out 0) ∧ (unitAt (out 0) uid).any (fun u => u.cluster.isNone && (u.part == 0)) = true ∧ wanted (out 0) ≠ [] ∧
      PackageUp a ∧ (unitAt a uid).any (fun u => u.cluster == some 0) = true ∧
      (focusUnit uid a).any (fun s1 => (unitThreads s1).any (fun t => t.away && awayMoves s1 t)) = true :=
  ⟨⟨by decide +kernel, by decide +kernel, by decide +kernel⟩, by decide +kernel, by decide +kernel, by decide +kernel,
    by decide +kernel, by decide +kernel, ⟨by decide +kernel, by decide +kernel, by decide +kernel⟩, by decide +kernel,
    by decide +kernel, ⟨by decide +kernel, by decide +kernel, by decide +kernel⟩, by decide +kernel, by decide +kernel⟩

/-- A thread's frame that the pager has put to flash since Hornbeam read the table: no DRAM is marked for it, and it is given
back without a frame in DRAM. -/
theorem test_pagedOut :
    let u : UnitCtx := { wholeUnit vec with cluster := none }
    let e : CtxEntry := { frame := 2 ^ 21, state := 2, kind := 1, flags := 1, slot := vec.t.slot, handle := handleOf 0 1, unit := 0 }
    let s : State := writeCtx 0 0 e (mapPart { vec with t := .none, u := .empty, units := [u] } 0 (fun p => { p with ctx := [e] }))
    let paged := deviceWrite (ctxAddr (getPart s 0) 0 + 8) [3, 1, 0] s
    let freed := freeFrame u 1 vec.t.slot paged
    savedFrames s u (fun _ => true) = [2 ^ 21] ∧ savedFrames paged u (fun _ => true) = [] ∧
      Memory.readN freed.mem (ctxAddr (getPart s 0) 0 + 8) 3 = [0, 1, 0] := by decide +kernel

/-- A switched-out unit that waits behind a launch of its own priority, with a fresh unit of its own launch, and one that waits
behind nothing. -/
theorem test_witness_behind :
    let s (k : Option (Nat × Nat)) : State := { asked 0 with
      t := .none, u := .empty, units := [{ wholeUnit vec with cluster := none, behind := k }] }
    let c := Candidate.back (probeLaunch false) vec.u.uid 0
    let d := Candidate.fresh (waits 0)
    let s1 := s (some (1, 0))
    let more (s : State) : State := mapPart s 0 (fun p => { p with launches := p.launches.map (fun l =>
      if l.entry = 0 then { l with record := setNth l.record 32 2, frozen := none } else l) })
    c ∈ offered s1 0 ∧ d ∈ offered s1 0 ∧ d.key = (1, 0) ∧ awaited s1 0 c = false ∧ awaited s1 0 d = true ∧
      placeable s1 0 d = true ∧ chosen s1 0 = some d ∧ chosen (s none) 0 = some c ∧
      (offered (more s1) 0).length = 3 ∧ candidates (more s1) 0 = [d] := by decide +kernel

/-- A launch's unit beside one that stands already. -/
theorem test_witness_placed :
    let s : State := { asked 5 with units := [{ UnitCtx.empty with uid := 1 }], nextUid := 2 }
    findLaunch (getPart s 0) (waits 5).entry (waits 5).gen = some (waits 5) ∧ recCspImg (waits 5).record = 0 ∧
      (∀ u ∈ s.units, u.uid < s.nextUid) ∧ lacksCluster (asked 5) 0 (.fresh (waits 5)) = false := by decide +kernel

/-- A frozen priority, and one that counts 8 ms. -/
theorem test_witness_priority : (waits 5).frozen ≠ none ∧
    effPrio (getPart vec 0) { waits 5 with frozen := none, waited := 8000000 } =
      min (getJob (getPart vec 0) 0).ceil (recPrio (waits 5).record + 1) := by decide +kernel

/-- A table at 2 MiB, whose frame is 2 MiB above it. -/
theorem test_witness_frame :
    let e : CtxEntry := { frame := 0x400000, state := 1, kind := 1, flags := 1, slot := 0, handle := handleOf 0 1, unit := 0 }
    let s := mapPart vec 0 (fun p => { p with ctxtbl := 0x200001, ctx := [e] })
    CanonicalMemory s ∧ s.u.part < 4 ∧ frameOf s 1 s.t.slot = some (0, e) ∧ ctxAddr (myPart s) 0 + 32 ≤ e.frame :=
  ⟨⟨by decide +kernel, by decide +kernel, by decide +kernel⟩, by decide +kernel, by decide +kernel, by decide +kernel⟩

/-- A unit's frame at 4 MiB, and a byte of its scratchpad that has changed since the frame was written beside one that has
not. -/
theorem test_witness_unitFrame :
    let e : CtxEntry := { frame := 0x400000, state := 2, kind := 2, flags := 1, slot := 0, handle := handleOf 0 1, unit := 0 }
    let s := mapPart { vec with u := { vec.u with csp := [(5, 7)], cspSaved := [] } } 0 (fun p => { p with ctxtbl := 0x200001, ctx := [e] })
    CanonicalMemory s ∧ frameOf s 2 0 = some (0, e) ∧ Memory.read s.u.csp 5 ≠ Memory.read s.u.cspSaved 5 ∧
      Memory.read s.u.csp 6 = Memory.read s.u.cspSaved 6 :=
  ⟨⟨by decide +kernel, by decide +kernel, by decide +kernel⟩, by decide +kernel, by decide +kernel, by decide +kernel⟩

theorem test_witness_switchThread : (drain vec).t.noRollback = false := by decide +kernel

/-! ### Witnesses: the ring, the fabric, the ports, storage and the package -/

/-- A ring of 16 slots at 4096 with one command; job 0 registered with a quota and a root table at 0x10000 whose first page
is the first 64 GiB; a record at 0x20000. -/
def Sys2Proof.Tests.ring (op arg quota : Nat) : State :=
  let put (a : Nat) (b : List Byte) (m : List Host.Cell) : List Host.Cell := Memory.writeN m a b
  let mem := put 4096 (leBytes 8 op ++ leBytes 8 arg) (put 0x10000 (leBytes 8 0x12001) (put 0x12000 (leBytes 8 0x3F)
    (put 0x20000 (probeRecord false) vec.mem)))
  mapPart { vec with mem := mem } 0 (fun p => setJob { p with adq := 0x1001, adqTail := 1 }
    { Job.unset 0 with root := 0x10000, par := BitVec.ofNat 64 (quota * 2 ^ 16 + 0x850) })

/-- The machine after the command is taken. -/
def Sys2Proof.Tests.taken (op arg quota : Nat) : State :=
  mapPart (ring op arg quota) 0 (fun p => { p with adqHead := (p.adqHead + 1) % 65536 })

/-- The ring serves a command. -/
def Sys2Proof.Tests.serves (op arg quota : Nat) (bad : Bool) : Bool :=
  let s := ring op arg quota
  s.powered && !s.bootFail && s.stage == 7 && (headSlot s 0).any (fun c =>
    (slotBad (getPart s 0) c == bad) && (c.op == op && (c.arg == arg && c.job == 0)))

theorem test_witness_slot : Memory.wf (ring 1 0 9).mem = true ∧ CanonicalMemory (ring 1 0 9) :=
  ⟨by decide +kernel, by decide +kernel, by decide +kernel, by decide +kernel⟩

/-- Commands of each kind: invalid; a launch that is misaligned, whose record does not translate, fails its checks, is
refused, or is accepted; handles that are well formed and not. -/
theorem test_witness_ring : serves 5 0 9 true = true ∧ serves 1 1 9 false = true ∧ serves 1 cspBase 9 false = true ∧
    serves 1 0x30000 9 false = true ∧ serves 1 0x20000 1 false = true ∧ serves 1 0x20000 9 false = true ∧
    (∀ op ∈ [2, 3, 4], serves op 0x20000000 9 false = true ∧ serves op 0 9 false = true) ∧
    (parseHandle 0x20000000).isSome = true ∧ parseHandle 0 = none := by decide +kernel

/-- The endpoint is active while Ranistam is loaded. -/
theorem test_witness_doorbell :
    { State.reset with stage := 5 }.powered = true ∧ 5 ≤ { State.reset with stage := 5 }.stage := by decide +kernel

theorem test_witness_ringRecord :
    (∃ e, ringRecord 0 0 cspBase (taken 1 cspBase 9) = .error e) ∧
    (∃ r s2, ringRecord 0 0 0x30000 (taken 1 0x30000 9) = .ok (r, s2) ∧ recordReason s2 0 0 r true false = some 1) ∧
    (∃ r s2, ringRecord 0 0 0x20000 (taken 1 0x20000 1) = .ok (r, s2) ∧ recordReason s2 0 0 r true false = none ∧
      refusal (getPart s2 0) 0 = some 1) ∧
    ∃ r s2, ringRecord 0 0 0x20000 (taken 1 0x20000 9) = .ok (r, s2) ∧ recordReason s2 0 0 r true false = none ∧
      refusal (getPart s2 0) 0 = none := by
  refine ⟨⟨_, rfl⟩, ?_, ?_, ?_⟩
  · obtain ⟨r, s2, h, k⟩ := ok_of (p := fun r s2 => recordReason s2 0 0 r true false == some 1)
      (x := ringRecord 0 0 0x30000 (taken 1 0x30000 9)) (by decide +kernel)
    exact ⟨r, s2, h, by simpa using k⟩
  · obtain ⟨r, s2, h, k⟩ := ok_of (p := fun r s2 => (recordReason s2 0 0 r true false).isNone &&
      (refusal (getPart s2 0) 0 == some 1)) (x := ringRecord 0 0 0x20000 (taken 1 0x20000 1)) (by decide +kernel)
    exact ⟨r, s2, h, by simpa using k⟩
  · obtain ⟨r, s2, h, k⟩ := ok_of (p := fun r s2 => (recordReason s2 0 0 r true false).isNone &&
      (refusal (getPart s2 0) 0).isNone) (x := ringRecord 0 0 0x20000 (taken 1 0x20000 9)) (by decide +kernel)
    exact ⟨r, s2, h, by simpa using k⟩

theorem test_witness_hostJoin :
    let j : HostJoin := { slot := 3, job := 0, handle := 0x20000000, final := none }
    let s := mapPart vec 0 (fun p => { p with hostJoins := [j] })
    PackageUp s ∧ (getPart s 0).hostJoins.find? (fun j => j.slot == 3) = some j ∧ (hostJoinWord (getPart s 0) j).isSome = true ∧
      hasPart s 0 = true ∧ ∀ u ∈ allUnits s, u.cluster ≠ some 127 :=
  ⟨⟨by decide +kernel, by decide +kernel, by decide +kernel⟩, by decide +kernel, by decide +kernel, by decide +kernel,
    by decide +kernel⟩

/-- A job of two dies of this device and one of another, and a collective of f32 elements at a stage. -/
def Sys2Proof.Tests.team (count chunk code : Nat) (running : Bool) : State :=
  let desc := leBytes 32 0 ++ leBytes 4 count ++ leBytes 1 0 ++ leBytes 1 2 ++ leBytes 26 0
  let c (d : Nat) : Coll := { job := 0, gl := 7, num := 1, die := d, uid := 0, slot := 0, desc, since := 5, running, chunk, code }
  mapPart vec 0 (fun p => setJob { p with colls := [c 0, c 1] } { Job.unset 0 with
    groups := [(0, [{ campus := 0, rack := 0, rank := 0, die := 0 }, { campus := 0, rack := 0, rank := 0, die := 1 },
      { campus := 0, rack := 0, rank := 1, die := 0 }])], ranks := [0, 1] })

/-- A team of two is found at the stage that an event needs, with the other member on a remote device. -/
def Sys2Proof.Tests.found (s : State) (test : Coll → Bool) : Bool :=
  let p := getPart s 0
  s.powered && !s.bootFail && s.stage == 7 && (findTeam p 0 7 test).any (fun t =>
    t.2.length == 2 && !teamHeld s t.2 && (remoteRanks p t.1 == [2]))

theorem test_witness_collective :
    found (team 4 0 0 false) (fun c => !c.running) = true ∧
      found (team 4 0 0 true) (fun c => c.running && c.code == 0 && decide (c.chunk < (collDesc c.desc).chunks 3)) = true ∧
      found (team 4 1 0 true) (fun c => c.running && (c.code != 0 || c.chunk == (collDesc c.desc).chunks 3)) = true ∧
      found (team 4 0 2 true) (fun c => c.running && (c.code != 0 || c.chunk == (collDesc c.desc).chunks 3)) = true ∧
      found (team 4 0 0 true) (fun c => c.running && c.code == 0) = true ∧
      (getPart (team 4 0 0 true) 0).colls.find? (fun c => c.job == 0 && c.gl == 7) =
        some { job := 0, gl := 7, num := 1, die := 0, uid := 0, slot := 0
               desc := leBytes 32 0 ++ leBytes 4 4 ++ leBytes 1 0 ++ leBytes 1 2 ++ leBytes 26 0
               since := 5, running := true, chunk := 0, code := 0 } ∧
      (getPart (team 4 0 0 true) 0).colls.all (fun c => patienceOver { team 4 0 0 true with time := 50000005 } 0 c) = true := by
  decide +kernel

/-- The first chunk on memory that does not translate, and on memory that does. -/
def Sys2Proof.Tests.chunked (mapped : Bool) : Option (Except (Coll × MemFault) State) :=
  let s := team 4 0 0 true
  let s := if mapped then
      mapPart { s with mem := (ring 1 0 9).mem } 0 (fun p => setJob p { getJob p 0 with root := 0x10000 })
    else s
  (findTeam (getPart s 0) 0 7 (fun c => c.running)).map (fun t =>
    runChunk 0 t.1 t.2 [{ member := 2, src := leBytes 16 0, resid := [] }] [] (releaseTeam t.2 s))

theorem test_witness_chunk : (chunked true).any (fun r => r.toBool) = true ∧ (chunked false).any (fun r => !r.toBool) = true := by
  decide +kernel

/-- Two members on one device, with no compression. -/
theorem test_witness_fold :
    let d := collDesc (leBytes 37 0 ++ leBytes 1 2 ++ leBytes 26 0)
    let m : Member := { campus := 0, rack := 0, rank := 3, die := 0 }
    d.policy = 0 ∧ d.arr = false ∧ sameAt 0 m { m with die := 3 } = true ∧
      (reduceTree d [] (fun _ => []) [{ lead := 0, at_ := m, vals := [0x3F800000] },
        { lead := 1, at_ := { m with die := 3 }, vals := [0x40000000] }]).1 = [0x40400000] := by decide +kernel

/-- A packet of a job that is cancelled; one that cannot be placed; one that can. -/
def Sys2Proof.Tests.packets (bytes : List Byte) (canc : Bool) : State := mapPart vec 0 (fun p =>
  setJob { p with packets := [{ job := 1, src := 1, depth := 1, bytes := [] }, { job := 0, src := 1, depth := 1, bytes }] }
    { Job.unset 0 with par := 0x90850, canc })

theorem test_witness_packet :
    let big := setNth (setNth (probeRecord false) 36 8) 37 8
    PackageUp (packets [] true) ∧ hasPart (packets [] true) 0 = true ∧
      (getJob (getPart (packets [] true) 0) 0).canc = true ∧ (getJob (getPart (packets big false) 0) 0).canc = false ∧
      recordUnplaceable (packets big false) 0 0 big = true ∧
      recordUnplaceable (packets (probeRecord false) false) 0 0 (probeRecord false) = false ∧
      (getJob (getPart (packets (probeRecord false) false) 0) 0).valid = true ∧
      refusal (getPart (packets (probeRecord false) false) 0) 0 = none ∧
      (getPart (packets big false) 0).packets[1]? = some { job := 0, src := 1, depth := 1, bytes := big } ∧
      ∀ m x, m < 1 → (getPart (packets big false) 0).packets[m]? = some x → x.job ≠ 0 := by
  refine ⟨⟨by decide +kernel, by decide +kernel, by decide +kernel⟩, by decide +kernel, by decide +kernel, by decide +kernel,
    by decide +kernel, by decide +kernel, by decide +kernel, by decide +kernel, by decide +kernel, fun m x h => ?_⟩
  cases Nat.lt_one_iff.1 h
  have k : ((getPart (packets (setNth (setNth (probeRecord false) 36 8) 37 8) false) 0).packets[0]?).map (fun x => x.job) =
    some 1 := by decide +kernel
  intro e
  rw [e] at k
  simp only [Option.map_some, Option.some.injEq] at k
  omega

/-- A round of a job of ranks 0 and 1, where the other reports. -/
theorem test_witness_round :
    let s := team 4 0 0 false
    let r : List RankCount := [{ rank := 1, joins := true, count := 0, phases := [], sent := [], recv := [] }]
    PackageUp s ∧ hasPart s 0 = true ∧ (∃ x ∈ (getPart s 0).jobs, x.id = 0) ∧
      r.map (fun c => c.rank) = (getJob (getPart s 0) 0).ranks.filter (fun x => x != (getJob (getPart s 0) 0).rank) ∧
      ∃ c ∈ localCount (getPart s 0) (getJob (getPart s 0) 0) [] :: r, (c.joins = true ∧ c.count = 0) ∨ c.phases ≠ [] :=
  ⟨⟨by decide +kernel, by decide +kernel, by decide +kernel⟩, by decide +kernel, by decide +kernel, by decide +kernel,
    _, List.mem_cons_of_mem _ List.mem_cons_self, .inl ⟨rfl, rfl⟩⟩

/-- A round that may start again though nothing is due, since the last one did not conclude; and one that concludes. -/
theorem test_witness_roundAgain :
    let c (joins : Bool) : RankCount := { rank := 0, count := 0, joins, phases := [(1, 0)], sent := [], recv := [] }
    let j (joins : Bool) : Job := { Job.unset 0 with lastRound := some { counts := [c joins], concluded := false } }
    roundDue (j true).lastRound [{ c false with count := 1, phases := [] }] = true ∧
      roundConcludes (j true) [c true] = true ∧ roundConcludes (Job.unset 0) [c false] = false := by decide +kernel

/-- A collective of which only one of two local members is left, with code 3; a STAT that faults at a unit that is gone and at
one that is there, and one that does not. -/
theorem test_witness_lostTeam :
    let s := mapPart (team 4 0 3 true) 0 (fun p => { p with colls := p.colls.take 1 })
    let ok := mapPart { team 4 0 3 true with mem := (ring 1 0 9).mem } 0 (fun p => setJob p { getJob p 0 with root := 0x10000 })
    let stat (s : State) (uid : Nat) := (getPart (team 4 0 3 true) 0).colls.map (fun c =>
      (atColl { c with uid } (collStore 0 { c with uid } (collDesc c.desc).stat 8 [(0, collStatus c)]) s).toBool)
    (findTeam (getPart s 0) 0 7 (fun _ => true)).isNone = true ∧
      (lostTeam (getPart s 0) 0 7).map (fun t => (t.length, teamHeld s t)) = some (1, false) ∧
      stat (team 4 0 3 true) 99 = [false, false] ∧ stat (team 4 0 3 true) vec.u.uid = [false, false] ∧
      stat ok 99 = [true, true] ∧ (unitAt (team 4 0 3 true) 99).isSome = false ∧
      (unitAt (team 4 0 3 true) vec.u.uid).isSome = true := by decide +kernel

/-- A second cancel of a job sends nothing (R283). -/
theorem test_cancel_again :
    let s (canc : Bool) := mapPart vec 0 (fun p => setJob p { Job.unset 0 with ranks := [0, 1], canc })
    (getPart (cancelHandle 0 0 0x40000000 (s false)) 0).cancelOut = [(1, 0)] ∧
      (getPart (cancelHandle 0 0 0x40000000 (s true)) 0).cancelOut = [] := by decide +kernel

/-- A lost member whose STAT faults stays lost: nothing matches the collective any more (R303). -/
theorem test_lost_member_stays_lost :
    let s := mapPart (team 4 0 0 false) 0 (fun p => { p with colls := p.colls.map (fun c => { c with uid := vec.u.uid }) })
    (match exec (.collectiveMemberLost 0 0 7) s with
      | .next t => (getPart t 0).colls.map (fun c => (c.running, c.code))
      | _ => []) = [(true, 3), (true, 3)] := by decide +kernel

/-- The doorbell is taken at stage 5 of bring-up (R356). -/
theorem test_doorbell_stage5 :
    (match exec (.doorbellWrite 8 1) { State.reset with stage := 5 } with
      | .next t => t.doorbells
      | _ => []) = [(8, 1)] := by decide +kernel

/-- One sparse row asks of RSTRIDE the element's size alone, and two rows ask 16-byte alignment (R174 step 2). -/
theorem test_sparse_rows_aligned :
    let o (rows : Nat) : Opnd := ⟨4096, 0, 24, 0, 2, 12, 0, 0, 0, 0, 0, false, false, 32, rows, 4, 0⟩
    (o 1).check 0 = none ∧ (o 2).check 0 = some (.of 0x06 4096 0) := by decide +kernel

/-- SIB of lpr is the sibling's share, and 0 while the sibling is switched out alone (R271). -/
theorem test_lpr_sibling :
    let s (away : Bool) := { vec with u := { vec.u with threads := [{ vec.t with slot := 1, own := 24, away }] } }
    bitsAt (lprWord (s false)).toNat 8 8 = 24 ∧ bitsAt (lprWord (s true)).toNat 8 8 = 0 := by decide +kernel

/-- A unit of a job with a suspended timeline, whose cancelling ends the job's collectives. -/
theorem test_witness_loseColls :
    let s := loseColls 0 0 (team 4 0 0 true)
    (getPart s 0).colls.map (fun c => (c.running, c.code)) = [(true, 3), (true, 3)] ∧
      (∃ u ∈ allUnits s, u.part = 0 ∧ jobOf s u = 0) := by decide +kernel

/-- Port 15 in a state, with one flit in its window that has been sent so often, and a tag that failed twice. -/
def Sys2Proof.Tests.port15 (state sends keyed : Nat) : State := setPort 15 { Port.down with
  state, tagFails := 2, retrains := 3, keyed
  window := [{ flit := { seq := 0, via := none, tagOk := true, poisoned := false, bytes := [] }, sends, slot := 0 }] } vec

/-- The port in each of its states. -/
theorem test_witness_ports : ∀ k ∈ List.range 6,
    let s := port15 k 16 0
    PackageUp s ∧ (getPort s 15).state = k ∧ 2 ≤ (getPort s 15).tagFails ∧
      (∃ w ∈ (getPort s 15).window, 16 ≤ w.sends) ∧ 3 ≤ (getPort s 15).retrains := by
  have h : (List.range 6).all (fun k =>
      let s := port15 k 16 0
      (s.powered && !s.bootFail && s.stage == 7) && ((getPort s 15).state == k) &&
        decide (2 ≤ (getPort s 15).tagFails) && (getPort s 15).window.any (fun w => decide (16 ≤ w.sends)) &&
        decide (3 ≤ (getPort s 15).retrains)) = true := by decide +kernel
  intro k hk
  have g := List.all_eq_true.1 h k hk
  simp only [Bool.and_eq_true, Bool.not_eq_true', beq_iff_eq, List.any_eq_true, decide_eq_true_eq] at g
  exact ⟨⟨g.1.1.1.1.1.1, g.1.1.1.1.1.2, g.1.1.1.1.2⟩, g.1.1.1.2, g.1.1.2, g.1.2, g.2⟩

/-- A flit that may be sent once more; an acknowledgement that names it, and one that does not; and a key that has covered its
flits, with the flit in the window. -/
theorem test_witness_flits :
    let s := port15 4 15 0
    let w : SentFlit := { flit := { seq := 0, via := none, tagOk := true, poisoned := false, bytes := [] }, sends := 15, slot := 0 }
    PackageUp s ∧ (getPort s 15).state = 4 ∧ w ∈ (getPort s 15).window ∧ w.sends < 16 ∧ (getPort s 15).keyed < 2 ^ 32 ∧
      (getPort s 15).window.filter (fun w => !(List.contains [(15, 0)] (w.flit.via.getD 15, w.flit.seq))) = [] ∧
      (getPort s 15).window.filter (fun w => !(List.contains [(15, 1)] (w.flit.via.getD 15, w.flit.seq))) ≠ [] ∧
      let s := port15 3 15 (2 ^ 32)
      PackageUp s ∧ (getPort s 15).state = 3 ∧ 2 ^ 32 ≤ (getPort s 15).keyed ∧ ∀ w ∈ (getPort s 15).window, w.sends < 16 :=
  ⟨⟨by decide +kernel, by decide +kernel, by decide +kernel⟩, by decide +kernel, by decide +kernel, by decide +kernel,
    by decide +kernel, by decide +kernel, by decide +kernel, ⟨by decide +kernel, by decide +kernel, by decide +kernel⟩,
    by decide +kernel, by decide +kernel, by decide +kernel⟩

/-- Port 15 with device 7, which a job gives rank 3 and no other job a rank; and a flit moved from port 2 in its turn. -/
theorem test_witness_peer :
    let j : Job := { Job.unset 1 with par := 1, devices := [(3, 7)] }
    let s := mapPart (setPort 15 { Port.down with state := 3, peer := some 7 } vec) 0 (fun p => { p with jobs := [j] })
    (getPort s 15).peer = some 7 ∧ (getJob (getPart s 0) 1).rankOf 7 = some 3 ∧
      bitsAt (lnkstatWord s 1 15).toNat 48 16 = 3 ∧
      let u := setPort 15 { Port.down with state := 3, peer := some 8 } s
      (getJob (getPart u 0) 1).rankOf 8 = none ∧ (∀ j ∈ (getPart u 0).jobs, j.valid = true → j.rankOf 8 = none) ∧
      bitsAt (lnkstatWord u 1 15).toNat 48 16 = 0xFFFF ∧
      let f : Flit := { seq := 0, via := some 2, tagOk := true, poisoned := false, bytes := [] }
      f.via.getD 15 < 16 ∧ f.seq = (getPort s (f.via.getD 15)).rxSeq := by decide +kernel

/-- A thread of an odd slot that holds every lane of its core; and a package without a thread. -/
theorem test_witness_sram :
    let s : State := { vec with t := { vec.t with slot := 1, own := 64 } }
    s.t.live = true ∧ s.t.slot < 8 ∧ s.u.cluster.isSome = true ∧ s.t.away = false ∧ s.t.wait ≠ .start ∧ myCore s < 512 ∧
      focus ⟨s.u.uid, s.t.slot⟩ s = some s ∧ (∀ lane, inShare s s.t.own lane = true) ∧
      ∀ u ∈ allUnits { State.reset with stage := 7 }, u.threads = [] := by
  refine ⟨by decide +kernel, by decide +kernel, by decide +kernel, by decide +kernel, by decide +kernel, by decide +kernel,
    rfl, fun lane => ?_, by decide +kernel⟩
  rw [inShare, if_pos (by decide +kernel)]
  exact decide_eq_true (Nat.le_add_left _ _)

/-- The last byte of a die's DRAM, through a live port of its partition and through a root port. -/
theorem test_witness_storage :
    PackageUp vec ∧ CanonicalMemory vec ∧ isDramAddr (3 * 2 ^ 44 + 48 * 2 ^ 30 - 1) = true ∧
      isDramAddr (3 * 2 ^ 44 + 48 * 2 ^ 30) = false ∧ Focused vec ∧ vec.t.slot < 8 ∧
      vec.u.cluster.isSome = true ∧ vec.t.away = false ∧ vec.t.wait ≠ .start ∧
      let s := setPort 15 { Port.down with state := 3 } { vec with ioMap := [(3, 3 * 2 ^ 28 + 786431)] }
      PackageUp s ∧ (getPort s 15).state = 3 ∧ (getPort s 15).part = partOfAddr s (3 * 2 ^ 44 + 48 * 2 ^ 30 - 1) ∧
        (getPort s 15).window.length < windowSize s 15 ∧ (getPort s 15).keyed < 2 ^ 32 ∧ portReaches s 15 0 = true ∧
        portReaches s 19 (3 * 2 ^ 44 + 48 * 2 ^ 30 - 1) = true ∧ portReaches s 19 0 = false :=
  ⟨⟨by decide +kernel, by decide +kernel, by decide +kernel⟩, ⟨by decide +kernel, by decide +kernel, by decide +kernel⟩,
    by decide +kernel, by decide +kernel, focused_of (by decide +kernel), by decide +kernel,
    by decide +kernel, rfl, nofun, ⟨by decide +kernel, by decide +kernel, by decide +kernel⟩, by decide +kernel,
    by decide +kernel, by decide +kernel, by decide +kernel, by decide +kernel, by decide +kernel, by decide +kernel⟩

/-- A lane and a frame, retired and not; the sixteenth lane of a die. -/
theorem test_witness_retired :
    let s : State := { vec with flash := { vec.flash with lanes := (List.range 15).map (fun n => (n, 63)), frames := [5] } }
    (14, 63) ∈ s.flash.lanes ∧ (15, 63) ∉ s.flash.lanes ∧ 5 ∈ s.flash.frames ∧ 6 ∉ s.flash.frames ∧
      16 ≤ ((retireLane 0 15 63 s).flash.lanes.filter (fun l => l.1 / 128 == 15 / 128)).length ∧
      isDramAddr (6 * 65536) = true := by decide +kernel

/-- The lane that a core gives out first, whichever that is. -/
theorem test_witness_lane : Config.laneOrder (myCore vec) % 64 < 64 ∧
    inShare vec vec.t.own (Config.laneOrder (myCore vec) % 64) = true := by
  refine ⟨Nat.mod_lt _ (by decide), ?_⟩
  have h : ∀ k, (pickLanes 64 k (List.range 64)).idxOf (k % 64) = 0 := by
    intro k
    have e : (List.range 64).getD (k % 64) 0 = k % 64 := by
      have : k % 64 < 64 := Nat.mod_lt _ (by decide)
      simp [List.getD_eq_getElem?_getD, this]
    rw [pickLanes, List.length_range, e, List.idxOf_cons_self]
  have h1 : ¬ (vec.t.slot % 2 = 1 ∧ recordLanes vec ≤ 32) := by decide +kernel
  have h2 : 0 < vec.t.own := by decide +kernel
  simp only [inShare, if_neg h1, h, decide_eq_true_eq]
  exact h2

/-- A thread whose registers have more lanes than its share gives out. -/
theorem test_witness_spare : let s := withT (fun t => { t with lanes := 64 })
    usesSpare s (myCore s) (wholeUnit s) = true := by
  intro s
  have hu : (wholeUnit s).threads = [s.t] := by decide +kernel
  have hf : focus { uid := (wholeUnit s).uid, slot := s.t.slot } s = some s := by
    have a : s.u.uid ≠ 0 := by decide +kernel
    have b : s.t.slot < 16 := by decide +kernel
    have c : (wholeUnit s).uid = s.u.uid := rfl
    simp [focus, c, a, b]
  have hc : (wholeUnit s).cluster.isSome = true := by decide +kernel
  have hl : lanesInService s s.t.own < s.t.lanes := Nat.lt_of_le_of_lt (Nat.sub_le _ _) (by decide +kernel)
  have h3 : s.t.live = true ∧ s.t.slot < 8 ∧ isDet s = false := by decide +kernel
  simp [usesSpare, hu, hf, hc, hl, h3]

/-- A package with no unit changes to each other configuration, its ports going to the lowest partition. -/
theorem test_witness_partitions :
    let s : State := { State.reset with stage := 7 }
    PackageUp s ∧ hasPart s 0 = true ∧ (∀ u ∈ allUnits s, u.cluster = none) ∧ (∀ n, n < 4 → (getPart s n).launches = []) ∧
      ∀ c ∈ [1, 2, 3, 4], movingDies s.config c ≠ [] ∧ (∃ d ∈ movingDies s.config c, 0 = partOfDie s.config d) ∧
        diesOf c 0 ≠ [] ∧ ∀ n, n < 16 → (getPort s n).part = 0 :=
  ⟨⟨by decide +kernel, by decide +kernel, by decide +kernel⟩, by decide +kernel, by decide +kernel, by decide +kernel,
    by decide +kernel⟩

/-- The package before bring-up, and off. -/
theorem test_witness_power :
    (State.reset.stage = 0 ∧ State.reset.bootFail = false) ∧ State.reset.powered = true ∧
      ({ State.reset with powered := false } : State).powered = false := by decide +kernel

/-- Each stage of bring-up, by a turn and by default, where it succeeds and where it fails. -/
def Sys2Proof.Tests.bootInput (ok : Bool) : BootInput :=
  { appFwOk := ok, diesOk := ok, dramOk := ok, badLanes := [(511, 63)], badFrames := [7], placedOk := ok, ranistamOk := ok
    jrnBase := [9], ports := [] }

/-- Images A and B whose signatures verify or not, under the key of a secret of zeros. -/
def Sys2Proof.Tests.signedFlash (a b : Bool) : Flash :=
  let secret : List Byte := List.replicate 32 0
  let comp : List Byte := [1]
  let compSig := edSign secret (sha512 comp)
  let sig := edSign secret (sha512 ([2] ++ comp ++ compSig ++ [3]))
  let image (ok : Bool) : FwImage := { app := [2], comp, compSig, ran := [3], sig := if ok then sig else [] }
  { Flash.empty with imageA := image a, imageB := image b }

def Sys2Proof.Tests.bootState (stage : Nat) (ok : Bool) (agenda : List Turn) : State :=
  { State.reset with stage := stage, boot := some (bootInput ok), agenda := agenda }

theorem test_witness_boot : ∀ n ∈ [1, 2, 3, 4, 5, 6], ∀ ok ∈ [false, true], ∀ a ∈ [[], [Turn.boot]],
    let s := bootState n ok a
    s.powered = true ∧ s.bootFail = false ∧ s.boot = some (bootInput ok) ∧ s.stage < 7 ∧ s.stage = n ∧
      (s.agenda = [] ∨ s.agenda = .boot :: []) ∧ s.flash.lanes.Nodup ∧ s.flash.frames.Nodup := by decide +kernel

/-- Signatures that verify and one that does not, and a signature of the compute dies' firmware. -/
theorem test_witness_signatures :
    let key := edPublic (List.replicate 32 0)
    (signedFlash true false).imageA.verifies key = true ∧ (signedFlash true false).imageB.verifies key = false ∧
      (signedFlash true false).imageB.compVerifies key = true ∧
      ({ (signedFlash true true).imageA with comp := [9] } : FwImage).compVerifies key = false := by decide +kernel

/-- Flash whose records carry their tags, and flash of which one does not. -/
theorem test_witness_tags : (Flash.sealed .empty).tags = (Flash.sealed .empty).due ∧
    ({ Flash.empty with tags := { Flash.empty.due with config := 0 :: Flash.empty.due.config } } : Flash).tags ≠
      Flash.empty.due :=
  ⟨rfl, fun h => absurd (congrArg (fun t : FlashTags => t.config.length) h) (by
    show ¬ Flash.empty.due.config.length + 1 = Flash.empty.due.config.length
    omega)⟩

/-- RFC 4231, test cases 2 and 6. -/
theorem test_hmac :
    let text (s : String) : List Byte := s.toList.map (fun c => BitVec.ofNat 8 c.toNat)
    hmac512 (text "Jefe") (text "what do ya want for nothing?") = (leBytes 64
      0x164b7a7bfcf819e2e395fbe73b56e0a387bd64222e831fd610270cd7ea2505549758bf75c05a994a6d034f65f8f0e6fdcaeab1a34d4a6b4b636e070a38bce737).reverse ∧
    hmac512 (List.replicate 131 0xAA) (text "Test Using Larger Than Block-Size Key - Hash Key First") = (leBytes 64
      0x80b24263c7c1a3ebb71493c1dd7be8b49b46d1f41b4aeec1121b013783f8f3526b56d037e05f2598bd0fd2215d6a1e5295e64f73f63f0aec8b915a985d786598).reverse := by decide +kernel

/-- RFC 8032, section 7.1, test 1: the signature verifies, and with another message it does not. -/
theorem test_edVerify :
    let pub := (leBytes 32 0xd75a980182b10ab7d54bfed3c964073a0ee172f3daa62325af021a68f707511a).reverse
    let sig := (leBytes 64 0xe5564300c360ac729086e2cc806e828a84877f1eb8e5d974d873e065224901555fb8821590a33bacc61e39701cf9b46bd25bf5f0595bbe24655141438e7a100b).reverse
    edVerify pub [] sig = true ∧ edVerify pub [0] sig = false := by decide +kernel

/-- A partition at 95 degrees, the lowest that reduces the clock, and at 89, the highest that raises it; 1 ms after a change. -/
theorem test_witness_clock :
    let s (temp clk : Nat) : State := mapPart { vec with
      time := 1000000, dies := Vector.replicate 4 { temp := temp, corr := 0 } } 0
      (fun p => { p with clk := clk, clkAt := 0, thr := 1 })
    (getPart (s 95 11) 0).clkAt + 1000000 ≤ (s 95 11).time ∧ (getPart (s 95 11) 0).clk = 11 ∧
      ∃ die ∈ diesOf vec.config 0, 95 ≤ (getDie (s 95 11) die).temp ∧
        (∀ d ∈ diesOf vec.config 0, (getDie (s 95 11) d).temp ≤ (getDie (s 95 11) die).temp) ∧
        (getPart (s 89 16) 0).clk = 16 ∧ (getDie (s 89 16) die).temp < 90 ∧
        ∀ d ∈ diesOf vec.config 0, (getDie (s 89 16) d).temp ≤ (getDie (s 89 16) die).temp := by decide +kernel

/-! ### Witnesses: traps, waits and what helpers leave -/

/-- A target that is no multiple of 4. -/
theorem test_witness_jalr : Able 0x2A rri (setX vec 5 1) ∧
    (getX (setX vec 5 1) rri.a + (rri.b ++ rri.c : BitVec 14).signExtend 64).toNat % 4 ≠ 0 :=
  ⟨able_of (by decide +kernel), by decide +kernel⟩

/-- A group of half a register of f32, by which an operand spans two. -/
def Sys2Proof.Tests.halves : State := withArch vec { vec.t.arch with vtr := vtrWord .f32 0 0 3 0, vl := 4 }

/-- An override of another width, an odd register of a span of two, and an integer type under a transcendental. -/
theorem test_witness_operandTraps :
    let wide : Form := { d := 5, a := 5, b := 5, fmt := 1 }
    let odd : Form := { d := 5, a := 5, b := 5 }
    (∀ r ∈ elementRows ++ transcendentalRows, Able r.opc wide halves ∧ fmtFits wide halves = false ∧ Able r.opc odd halves ∧
      fmtFits odd halves = true ∧ ∃ n ∈ r.operands odd, spanOk halves n (elemType odd halves).width = false) ∧
    ∀ r ∈ transcendentalRows, Able r.opc odd elems ∧ fmtFits odd elems = true ∧
      (∀ n ∈ r.operands odd, spanOk elems n (elemType odd elems).width = true) ∧ r.accepts (elemType odd elems) = false := by
  intro wide odd
  have h : (elementRows ++ transcendentalRows).all (fun r => able r.opc wide halves && able r.opc odd halves &&
      (r.operands odd).any (fun n => !spanOk halves n (elemType odd halves).width)) = true := by decide +kernel
  have g : transcendentalRows.all (fun r => able r.opc odd elems && !r.accepts (elemType odd elems) &&
      (r.operands odd).all (fun n => spanOk elems n (elemType odd elems).width)) = true := by decide +kernel
  refine ⟨fun r hr => ?_, fun r hr => ?_⟩
  · have k := List.all_eq_true.1 h r hr
    simp only [Bool.and_eq_true, List.any_eq_true, Bool.not_eq_true'] at k
    exact ⟨able_of k.1.1, by decide +kernel, able_of k.1.2, by decide +kernel, k.2⟩
  · have k := List.all_eq_true.1 g r hr
    simp only [Bool.and_eq_true, List.all_eq_true, Bool.not_eq_true'] at k
    exact ⟨able_of k.1.1, by decide +kernel, k.2, k.1.2⟩

/-- The same for the other vector instructions; a conversion without a target, and a column count of 0 and of 3. -/
theorem test_witness_vectorOperandTraps :
    let odd : Form := { d := 5, a := 5, b := 5 }
    (∀ r ∈ spanRows, Able r.2.1 odd halves ∧ fmtFits odd halves = true ∧ fmtFits { odd with fmt := 1 } halves = false ∧
      ∃ n ∈ r.2.2 odd, spanOk halves n (elemType odd halves).width = false) ∧
    Able 0x7D odd halves ∧ spanOk halves 5 (elemType odd halves).width = false ∧
    (∀ r ∈ conversionRows, Able r.2.1 odd halves ∧ r.2.2.2 16 32 = (r.2.1 == 0x58) ∧ spanOk halves 5 32 = false) ∧
    widened .f64 = none ∧ Able 0x5F odd elems ∧ getX elems 5 = 0 ∧ elems.t.arch.vl ≠ 0 ∧
    elems.t.arch.vl % (getX (setX elems 5 3) 5).toNat ≠ 0 ∧ spanOk elems 5 (elemType odd elems).width = true := by
  intro odd
  have h : spanRows.all (fun r => able r.2.1 odd halves && (r.2.2 odd).any (fun n =>
      !spanOk halves n (elemType odd halves).width)) = true := by decide +kernel
  have g : conversionRows.all (fun r => able r.2.1 odd halves && r.2.2.2 16 32 == (r.2.1 == 0x58)) = true := by decide +kernel
  refine ⟨fun r hr => ?_, able_of (by decide +kernel), by decide +kernel, fun r hr => ?_, by decide +kernel,
    able_of (by decide +kernel), by decide +kernel, by decide +kernel, by decide +kernel, by decide +kernel⟩
  · have k := List.all_eq_true.1 h r hr
    simp only [Bool.and_eq_true, List.any_eq_true, Bool.not_eq_true'] at k
    exact ⟨able_of k.1, by decide +kernel, by decide +kernel, k.2⟩
  · have k := List.all_eq_true.1 g r hr
    simp only [Bool.and_eq_true, beq_iff_eq] at k
    exact ⟨able_of k.1, k.2, by decide +kernel⟩

/-- A first-faulting load that runs beyond the scratchpad after eight elements, and one that starts beyond it. -/
def Sys2Proof.Tests.faulting (at_ : Nat) : State := setX vmem 5 (BitVec.ofNat 64 (cspBase + at_))

/-- Its first element that does not translate, with what it loads below it. -/
def Sys2Proof.Tests.stopsAt (at_ i kept : Nat) : Bool :=
  let f : Form := { d := 6, a := 5 }
  let s := faulting at_
  let places := (activeList s f).map (elemAddr (accessEnc 0xC4 f s) f s)
  able 0xC4 f s && !isDet s && !accessIllegal 0xC4 (accessEnc 0xC4 f s) f s && !accessConfig 0xC4 (accessEnc 0xC4 f s) f s &&
    s.t.arch.vl != 0 && (alignFault (accessEnc 0xC4 f s) f s places).isNone &&
    match translateElems (threadSpace s) .load places s with
    | (locs, some (e, k), s1) => (e.code == 7 || e.code == 8) && k == i &&
      (locs.filter (fun l => decide (l.at_.idx < k))).length == kept &&
      (elemsDataError s1 (locs.filter (fun l => decide (l.at_.idx < k)))).isNone
    | _ => false

theorem test_witness_firstFault : stopsAt 0x1FFFF0 8 8 = true ∧ stopsAt 0x200000 0 0 = true := by decide +kernel

/-- An AMO of a deterministic launch. -/
theorem test_witness_amoDet : ∀ r ∈ amoRows, ∃ f s loc locs s1, Able r.2.2 f s ∧ EpochEnded s ∧ isDet s = true ∧
    (getX s f.a).toNat % scalarBytes f = 0 ∧
    translateElem (openStrip (commit s) 1) (threadSpace s) .amo (getX s f.a).toNat (scalarBytes f) = .ok (loc :: locs, s1) ∧
    dataError (drain s1) (getX s f.a).toNat (loc :: locs) = none := by
  let f : Form := { d := 6, a := 4, b := 5 }
  have h : amoRows.all (fun r => able r.2.2 f (addrs det)) = true := by decide +kernel
  obtain ⟨a, s1, e, k⟩ := ok_of (p := fun l s1 => !l.isEmpty && (dataError (drain s1) (cspBase + 64) l).isNone)
    (x := translateElem (openStrip (commit (addrs det)) 1) (threadSpace (addrs det)) .amo (cspBase + 64) 8) (by decide +kernel)
  simp only [Bool.and_eq_true, Option.isNone_iff_eq_none] at k
  cases a with
  | nil => exact absurd k.1 (by decide)
  | cons l ls =>
    refine fun r hr => ⟨f, addrs det, l, ls, s1, able_of (List.all_eq_true.1 h r hr), ?_, by decide +kernel, by decide +kernel, e, k.2⟩
    have z : (addrs det).t.epoch = 0 := by decide +kernel
    exact fun _ _ _ => z ▸ Nat.zero_le _

/-- A thread of a deterministic launch with something in its buffer. -/
theorem test_witness_buffered : let s : State := { det with t := { det.t with wcb := [(1, .tile 1)] } }
    Able 0xDA { mod := 13 } s ∧ Sys2Proof.Machine.orderOf { mod := 13 } ≠ 0 ∧ (drain (commit s)).t.wcb ≠ [] ∧
      (drain (commit vec)).t.wcb = [] :=
  ⟨able_of (by decide +kernel), by decide +kernel, by decide +kernel, by decide +kernel⟩

/-- One store more outstanding than `waitc` names; and a timeline whose copy is suspended. -/
theorem test_witness_waits :
    let s := run (.st { d := 5, a := 4 }) (addrs vec)
    let x : Suspend := { sub := 5, tval := 64, telem := 14, issuer := 0, delivered := true }
    let c := setCsusp (setX vec 5 1) 14 (some x)
    Able 0xD7 {} s ∧ bitsAt (packedConst {}) 4 4 < openStores s.t + performingStores s.t ∧
      Able 0xD8 { d := 14, a := 5 } c ∧ getX c 5 ≠ 0 ∧ suspendedOn c 14 = some x :=
  ⟨able_of (by decide +kernel), by decide +kernel, able_of (by decide +kernel), by decide +kernel, by decide +kernel⟩

/-- No free slot for a producer, and no published one for a consumer. -/
theorem test_witness_channelWaits :
    let f : Form := { d := 2, a := 15 }
    let p := chan 1
    let c := chan 0
    spanOk p 2 (vtrType p).width = true ∧ (getChan p 15).scount ≠ 0 ∧
      chanOffset f p + ceilDiv (p.t.arch.vl * (vtrType p).width) 8 ≤ (getChan p 15).slotBytes ∧ chanOffset f p % 64 = 0 ∧
      Able 0xCA f p ∧ (getChan p 15).prod = 0xFF ∧ (getChan p 15).scount ≤ (getChan p 15).full + localSent p.t 15 ∧
      spanOk c 2 (vtrType c).width = true ∧ (getChan c 15).scount ≠ 0 ∧
      chanOffset f c + ceilDiv (c.t.arch.vl * (vtrType c).width) 8 ≤ (getChan c 15).slotBytes ∧ chanOffset f c % 64 = 0 ∧
      Able 0xCB f c ∧ (getChan c 15).cons = 0xFF ∧ (getChan c 15).full ≤ localRecvd c.t 15 :=
  ⟨by decide +kernel, by decide +kernel, by decide +kernel, by decide +kernel, able_of (by decide +kernel), by decide +kernel,
    by decide +kernel, by decide +kernel, by decide +kernel, by decide +kernel, by decide +kernel, able_of (by decide +kernel),
    by decide +kernel, by decide +kernel⟩

/-- A reserved bit in tstat.CHK; and a block whose thread meets a `trap`. -/
theorem test_witness_tretTraps :
    let s : State := { handler vec with t := { (handler vec).t with tstat := 0x10000 } }
    let b : State := { inBlock with t := { inBlock.t with ckpt := inBlock.t.arch } }
    let t := run (.trap { a := 5, b := 4 }) b
    Able 0xF9 {} s ∧ bitsAt s.t.tstat.toNat 16 48 ≠ 0 ∧ running b = true ∧ b.t.arch.vp.isSome = true ∧
      b.t.ckpt.vp = b.t.arch.vp ∧ exec (.trap { a := 5, b := 4 }) b = .next t ∧ Able 0xF9 {} t ∧
      bitsAt b.t.tstat.toNat 16 48 = 0 :=
  ⟨able_of (by decide +kernel), by decide +kernel, by decide +kernel, by decide +kernel, by decide +kernel, rfl,
    able_of (by decide +kernel), by decide +kernel⟩

/-- Entries that expand to no instruction: of an opcode that is not one, and of a tile instruction with a wrong modifier. -/
theorem test_witness_dictionaryIllegal :
    let e (v : W64) (s : State) : State := { s with t := { s.t with dict := s.t.dict.set 7 v } }
    let a := e 0x3F00000000000000 vec
    let b := e 0xA300000000000100 mcc
    running a = true ∧ running b = true ∧ decodeLong (expandEntry (dictEntry a 7) 1 2 3) = none ∧
      decodeLong (expandEntry (dictEntry b 7) 1 2 3) = none ∧ longOpc (expandEntry (dictEntry b 7) 1 2 3) = 0xA3 ∧
      b.t.slot = 8 ∧ dictEntry a 7 ≠ undefinedEntry ∧ dictEntry b 7 ≠ undefinedEntry := by decide +kernel

/-- The handles of a launch, a graph, a phase and a job; the job of the started thread has one launch, of this entry. -/
theorem test_witness_handles : parseHandle 0x10001000 = some (1, 1, 0) ∧ parseHandle 0x20000005 = some (2, 0, 5) ∧
    parseHandle 0x30000007 = some (3, 0, 7) ∧ (parseHandle 0x40000000).any (fun h => h.1 == 4) = true ∧
    ((getPart quotaHeld 0).launches.map (fun l => l.entry)).Nodup ∧
    (launchOf (getPart vec 0) 0 0 1).any (fun l => !l.canc) = true := by decide +kernel

/-- A child of the started thread's launch. -/
theorem test_witness_child : let c : Creator := { depth := 1, uid := 1, die := 0, parent := some (0, 1), ancestors := [], jseq := 0 }
    c.parent = some (0, 1) ∧ (findLaunch (getPart vec 0) 0 1).isSome = true ∧ (getJob (getPart vec 0) 0).canc = false ∧
      (getCounter (getJob (getPart vec 0) 0).graphs 0).canc = false ∧
      (getCounter (getJob (getPart vec 0) 0).phases 0).canc = false := by decide +kernel

/-- A thread whose core has no other, and one with another. -/
theorem test_witness_shares :
    let t (n : Nat) : Thread := { Thread.none with live := true, slot := n, dem := 64, own := 8 }
    [t 0, t 3].filter (onCore false 0) = [t 0] ∧ [t 0, t 1].filter (onCore false 0) = [t 0, t 1] ∧
      [t 2].filter (onCore false 0) = [] := by decide +kernel

/-- One of two threads that exits. -/
theorem test_witness_leaves : InPlace (pair [3] .none 0) ∧ (pair [3] .none 0).t.live = true ∧
    ∃ r ∈ (pair [3] .none 0).u.threads, r.live = true := by
  refine ⟨⟨by decide +kernel, by decide +kernel, by decide +kernel, by decide +kernel, by decide +kernel, ?_, ?_⟩,
    by decide +kernel, by decide +kernel⟩
  · exact fun h => absurd h (by decide +kernel)
  · exact fun h => absurd h (by decide +kernel)

/-- Sixteen granules of function registers and a pending share of seven lanes, which has fourteen. -/
theorem test_witness_poolTooSmall :
    let a := vec.t.arch
    let s : State := { vec with t := { vec.t with
      arch := { a with fn := a.fn.set 0 { FnReg.empty with d := 1, p := 1, gran := 15, nelem := 1 } }, pend := 7 } }
    Able 0x40 { d := 6, a := 5 } s ∧ poolTooSmall s = true := ⟨able_of (by decide +kernel), by decide +kernel⟩

/-- The started thread's unit, which may end. -/
theorem test_witness_ends_unit : (unitAt vec vec.u.uid).any (fun u => decide (u.part < 4) &&
    (findLaunch (getPart vec u.part) u.entry u.gen).isSome) = true := by decide +kernel

/-! ### Witnesses: launches and events that stop -/

theorem test_witness_inPlace : InPlace vec ∧ focus (here vec) vec = some vec := by
  refine ⟨⟨by decide +kernel, by decide +kernel, by decide +kernel, by decide +kernel, by decide +kernel, ?_, ?_⟩,
    (focused_of (by decide +kernel)).2.1⟩
  · exact fun h => absurd h (by decide +kernel)
  · exact fun h => absurd h (by decide +kernel)

/-- A record of more cores than a cluster has. -/
def Sys2Proof.Tests.wideRecord : List Byte := setNth (setNth (probeRecord false) 36 8) 37 8

/-- What a launch meets once its record is read: the reason of its first check that fails, and the depth limit. -/
def Sys2Proof.Tests.launchMeets (s : State) (p : List Byte → State → Bool) : Bool :=
  able 0xE1 { d := 3, a := 4 } s && !isDet s && (s.t.wait == .none) && (getX s 4).toNat % 64 == 0 &&
    okThen (readRecord (openStrip (commit s) 1) (getX s 4).toNat 128) p

/-- A misaligned record; one that fails a check; a job of depth limit 0; a quota that the thread's own launch holds; and a
launch that has waited. -/
theorem test_witness_launchFaults :
    let s := holding (probeRecord false)
    let bad := setX s 4 (getX s 4 + 8)
    let par (v : W64) : State := mapPart s 0 (fun p => setJob p { Job.unset 0 with par := v })
    let waiting : State := { s with t := { s.t with wait := .pool (probeRecord false) } }
    Able 0xE1 { d := 3, a := 4 } bad ∧ EpochEnded bad ∧ bad.t.wait = .none ∧ (getX bad 4).toNat % 64 ≠ 0 ∧
      launchMeets (holding wideRecord) (fun b s1 => (recordReason s1 s1.u.part (myJobId s1) b true true).isSome) = true ∧
      launchMeets (par 0x640800) (fun b s1 => (recordReason s1 s1.u.part (myJobId s1) b true true).isNone &&
        decide ((myJob s1).depthLimit < childDepth s1)) = true ∧
      launchMeets (par 0x10850) (fun b s1 => (recordReason s1 s1.u.part (myJobId s1) b true true).isNone &&
        decide (childDepth s1 ≤ (myJob s1).depthLimit) && (refusal (myPart s1) (myJobId s1) == some 1) && quotaIsOwn s1) = true ∧
      Able 0xE1 { d := 3, a := 4 } waiting ∧ EpochEnded waiting ∧ waiting.t.wait = .pool (probeRecord false) ∧
      refusal (myPart waiting) (myJobId waiting) = none :=
  ⟨able_of (by decide +kernel), epochEnded_of (by decide +kernel), rfl, by decide +kernel, by decide +kernel, by decide +kernel,
    by decide +kernel, able_of (by decide +kernel), epochEnded_of (by decide +kernel), rfl, by decide +kernel⟩

/-- Boundaries with nothing before the item: the old strip, the single step, the image, the group that yields. -/
theorem test_witness_items :
    let vp : Vp := { vpc := [0, 4], run := 3, joinPc := 8, group := 1, count := 64 }
    let old := withT (fun t => { t with stripAge := 655360 })
    let step := withT (fun t => { t with stepDue := true })
    let load := imaged (cspBase + 2048) false
    let group := withArch vec { vec.t.arch with vp := some vp }
    (dueFault old = none ∧ old.t.stepDue = false ∧ stripOld old = true) ∧ dueFault step = none ∧
      (dueFault load = none ∧ load.t.stepDue = false ∧ stripOld load = false ∧ atBoundary load = true) ∧
      (dueFault group = none ∧ group.t.stepDue = false ∧ stripOld group = false ∧ loadDue group = false) := by decide +kernel

/-- A handler whose timeline 14 is suspended, without a copy and with one. -/
theorem test_witness_cpstat :
    let x : Suspend := { sub := 5, tval := 64, telem := 14, issuer := 0, delivered := true }
    let c : Copy := { tl := 14, num := 1, dst := [], src := [], cls := 0, issuer := 0, started := true, done := 0, ended := false, saved := [] }
    let s := setCsusp (handler vec) 14 (some x)
    let t : State := { s with u := { s.u with copies := [c] } }
    s.t.mode = .super ∧ (getCsusp s 14).isSome = true ∧ headCopy s 14 = none ∧ t.t.mode = .super ∧
      (getCsusp t 14).isSome = true ∧ headCopy t 14 = some c := by decide +kernel

/-- An operation that has fired, on a cluster, with rows to go. -/
theorem test_witness_rows : ∃ s1 p, focusUnit vec.u.uid { engines false false with
      u := { (engines false false).u with ops := (engines false false).u.ops.map (fun p => { p with fired := true }) } } = some s1 ∧
    inProgress s1 = some p ∧ s1.u.cluster.isSome = true ∧ s1.u.tsusp = none ∧ s1.u.tstop = false := by
  obtain ⟨s1, h, k⟩ := some_of (p := fun s1 => (inProgress s1).isSome && (s1.u.cluster.isSome && (s1.u.tsusp.isNone && !s1.u.tstop)))
    (x := focusUnit vec.u.uid { engines false false with
      u := { (engines false false).u with ops := (engines false false).u.ops.map (fun p => { p with fired := true }) } })
    (by decide +kernel)
  simp only [Bool.and_eq_true, Option.isNone_iff_eq_none, Bool.not_eq_true'] at k
  obtain ⟨p, hp⟩ := Option.isSome_iff_exists.1 k.1
  exact ⟨s1, p, h, hp, k.2.1, k.2.2.1, k.2.2.2⟩

/-- Dense tiles 1 and 2 of one row, of f64 1.5 and 2.5, or of the integers 2^63 and 2^63 + 5. -/
def Sys2Proof.Tests.tilePair (int64 : Bool) (a b : Nat) : State :=
  let h := denseHdr 1 1 int64
  setTile (setTile mcc 1 { zeroTile h with acc := [a] }) 2 { zeroTile h with acc := [b] }

/-- An operation on those tiles, with the value of `tscale`. -/
def Sys2Proof.Tests.tileOp (opc : Nat) (int64 : Bool) : TileOp :=
  { num := 1, opc := opc, td := 3, ta := 1, tb := 2, hdr := denseHdr 1 1 int64, gm := 1, gn := 1, gk := 0, z := false, fmt := 0
    cls := 0, descA := [], descB := [], val := 0x4000000000000000, rnd := 0, seed := 0, c0hi := 0, stripSeq := 0, rcap := 0
    policy := 0, tabs := false, ttol := 0, sweeps := 0, fired := true, row := 0, done := false }

/-- Each of them, whose sum is 4.0 or wraps to 5, and whose product with 2.0 is 3.0. -/
theorem test_witness_tileRegisters :
    (∀ o ∈ [0xA1, 0xA2, 0xA9, 0xAD], (tileOp o false).td < 16 ∧ (tileOp o false).hdr.kind = 1) ∧
      (getTile (tilePair true 0 0) 1).hdr.kind = 1 ∧ (tileOp 0xA9 true).hdr.int64 = true ∧ (tileOp 0xA9 false).hdr.int64 = false ∧
      (getTile (performOp 1 (tilePair true (2 ^ 63) (2 ^ 63 + 5)) (tileOp 0xA9 true)).1 3).acc = [5] ∧
      (getTile (performOp 1 (tilePair false 0x3FF8000000000000 0x4004000000000000) (tileOp 0xA9 false)).1 3).acc =
        [0x4010000000000000] ∧
      (getTile (performOp 1 (tilePair false 0x3FF8000000000000 0) (tileOp 0xAD false)).1 3).acc = [0x4008000000000000] := by
  decide +kernel

/-- Copies whose records overlap, four bytes apart, and one of no elements. -/
theorem test_witness_overlap :
    let tensor (at_ n : Nat) : List Byte := leBytes 8 (cspBase + at_) ++ leBytes 20 n ++ leBytes 20 1 ++ leBytes 8 0 ++
      leBytes 8 (2 * 2 ^ 8 + 2 ^ 16)
    CanonicalMemory vec ∧ hullsMeet (tensorOf (tensor 4096 4)) (tensorOf (tensor 4100 4)) = true ∧
      (tensorOf (tensor 4096 0)).isEmpty = true :=
  ⟨⟨by decide +kernel, by decide +kernel, by decide +kernel⟩, by decide +kernel, by decide +kernel⟩

/-- A job of ranks 0 and 1 whose last two rounds agree that nothing is outstanding, with a launch of phase 1 on this device;
and one that has had no round. -/
theorem test_witness_rounds :
    let zero (r : Nat) : RankCount := { rank := r, count := 0, joins := r == 1, phases := [(1, 0)], sent := [], recv := [] }
    let r : Round := { counts := [zero 0, zero 1], concluded := false }
    let j : Job := { Job.unset 0 with ranks := [0, 1], lastRound := some r }
    let l : Launch := { probeLaunch false with record := setNth (probeRecord false) 42 1 }
    let p := setJob { getPart vec 0 with launches := [l] } j
    (getJob (getPart vec 0) 0).lastRound = none ∧ (getJob p 0).lastRound = some r ∧
      allReceived (getJob p 0).ranks r.counts = true ∧ sameCounts r.counts r.counts = true ∧ (∀ c ∈ r.counts, c.count = 0) ∧
      phaseClear r.counts (recPhase l.record) = true ∧ l.job = 0 := by decide +kernel

/-- A die of a job that keeps its timelines; a unit that runs, and one that is gone. -/
theorem test_witness_collUnits :
    InPlace vec ∧ 3 < (getJob (getPart vec 0) 0).gl.length ∧
      (unitAt vec vec.u.uid).any (fun u => u.threads.any (fun t => t.live)) = true ∧ unitAt vec 99 = none :=
  ⟨test_witness_inPlace.1, by decide +kernel, by decide +kernel, by decide +kernel⟩

/-- Two children of one subtree. -/
theorem test_witness_leads : let m : Member := { campus := 0, rack := 0, rank := 0, die := 0 }
    ([{ lead := 0, at_ := m, vals := [] }, { lead := 1, at_ := { m with die := 1 }, vals := [] }] : List Sub).Pairwise
      (fun x y => x.lead ≠ y.lead) := by decide +kernel

/-- A port that has sent 2^32 flits under its key, and a flit of 256 bytes. -/
theorem test_witness_rekey : let s := setPort 15 { Port.down with state := 3, keyed := 2 ^ 32 } vec
    PackageUp s ∧ (getPort s 15).state = 3 ∧ 2 ^ 32 ≤ (getPort s 15).keyed ∧ (List.replicate 256 (0 : Byte)).length = 256 :=
  ⟨⟨by decide +kernel, by decide +kernel, by decide +kernel⟩, by decide +kernel, by decide +kernel, by decide +kernel⟩

/-- A tile word with a bit in a field that it does not use, at an MCC thread. -/
theorem test_witness_tileWord :
    let s := State.reset.withFetchWord 32 0x70860A10
    s.agenda = [] ∧ started s = true ∧ ready s = true ∧ (atBoundary s = true → boundary s = none) ∧ s.t.slot = 8 ∧
      okThen (fetchWord s) (fun v _ => isTileOpc (wordOpc v) && (decodeWord v).isNone) = true := by
  have h : (!atBoundary (State.reset.withFetchWord 32 0x70860A10) ||
      (boundary (State.reset.withFetchWord 32 0x70860A10)).isNone) = true := by decide +kernel
  exact ⟨by decide +kernel, by decide +kernel, by decide +kernel, fun a => by simpa [a] using h, by decide +kernel,
    by decide +kernel⟩

/-! ### Witnesses: the machine as a whole -/

theorem test_witness_canonical : CanonicalMemory (State.reset.withFetchWord 32 0x00860A10) ∧
    ∃ t, step (State.reset.withFetchWord 32 0x00860A10) = .next t :=
  ⟨⟨by decide +kernel, by decide +kernel, by decide +kernel⟩, _, rfl⟩

/-- A word that decodes, one that does not, and an event of the agenda. -/
theorem test_witness_step : ∀ w ∈ [(0x00860A10 : Nat), 0x1C000000],
    let s := State.reset.withFetchWord 32 w
    s.agenda = [] ∧ started s = true ∧ ready s = true ∧ (atBoundary s = true → boundary s = none) ∧
      ∃ v s2, fetchWord s = .ok (v, s2) ∧ v.toNat = w := by
  intro w hw
  have h : [(0x00860A10 : Nat), 0x1C000000].all (fun w =>
      let s := State.reset.withFetchWord 32 w
      s.agenda.isEmpty && started s && ready s && (!atBoundary s || (boundary s).isNone) &&
        okThen (fetchWord s) (fun v _ => v.toNat == w)) = true := by decide +kernel
  have k := List.all_eq_true.1 h w hw
  simp only [Bool.and_eq_true, List.isEmpty_iff] at k
  obtain ⟨v, s2, e, g⟩ := ok_of k.2
  exact ⟨k.1.1.1.1, k.1.1.1.2, k.1.1.2, fun a => by simpa [a] using k.1.2, v, s2, e, by simpa using g⟩

theorem test_witness_words : (decodeTableWord 32 0x00860A10).isSome = true ∧ decodeTableWord 32 0x1C000000 = none ∧
    isEvent (.doorbellWrite 0 0) = true ∧ WellFormed (.tret {}) = true ∧ isEvent (.tret {}) = false := by decide +kernel

end
end

/-! PROOFS. The integer range of the scalar instructions (R98 to R101). -/

namespace Sys2Proof.Machine

open Sys2Proof

/-! ### The integer operations as R98 and R99 state them -/

/-- The upper half of a 128-bit product is its floor quotient by 2^64. -/
theorem extractHigh_ofInt (p : Int) : (BitVec.ofInt 128 p).extractLsb' 64 64 = BitVec.ofInt 64 (p / (2 ^ 64 : Nat)) := by
  apply BitVec.eq_of_toNat_eq
  simp only [BitVec.extractLsb'_toNat, BitVec.toNat_ofInt, Nat.shiftRight_eq_div_pow]
  omega

theorem mulHigh_eq (a y : W64) :
    mulHigh a y = (a.signExtend 128 * y.signExtend 128).extractLsb' 64 64 := by
  rw [mulHigh, ← extractHigh_ofInt, BitVec.ofInt_mul]
  rfl

theorem mulHighU_eq (a y : W64) :
    mulHighU a y = (a.setWidth 128 * y.setWidth 128).extractLsb' 64 64 := by
  apply BitVec.eq_of_toNat_eq
  simp only [mulHighU, BitVec.extractLsb'_toNat, BitVec.toNat_mul, BitVec.toNat_setWidth, BitVec.toNat_ofNat,
    Nat.shiftRight_eq_div_pow, ← Nat.mul_mod]
  omega

theorem divSigned_eq (a y : W64) : divSigned a y = if y = 0 then BitVec.allOnes 64 else a.sdiv y := by
  have quotient : BitVec.ofInt 64 (a.toInt.tdiv y.toInt) = a.sdiv y :=
    BitVec.eq_of_toInt_eq (by rw [BitVec.toInt_ofInt, BitVec.toInt_sdiv])
  rw [divSigned, quotient]

theorem divUnsigned_eq (a y : W64) : divUnsigned a y = if y = 0 then BitVec.allOnes 64 else a / y := by
  rw [divUnsigned, BitVec.udiv_def]

theorem remSigned_eq (a y : W64) : remSigned a y = if y = 0 then a else a.srem y := by
  rw [remSigned, ← BitVec.toInt_srem, BitVec.ofInt_toInt]

theorem remUnsigned_eq (a y : W64) : remUnsigned a y = if y = 0 then a else a % y := by
  rw [remUnsigned, BitVec.umod_def]

/-! ### The bit counts as R100 states them -/

/-- Behind its lowest bit a number has the bits of its half. -/
theorem testBit_comp_succ (x : Nat) : x.testBit ∘ Nat.succ = (x / 2).testBit := funext (Nat.testBit_succ x)

/-- `firstBit` finds the lowest one bit. -/
theorem find_testBit_range (n x : Nat) (hx : x ≠ 0) :
    ((List.range n).find? x.testBit).getD n = firstBit n x := by
  induction n generalizing x with
  | zero => rfl
  | succ n ih =>
    rw [List.range_succ_eq_map, List.find?_cons, firstBit, Nat.testBit_zero]
    by_cases odd : x % 2 = 1
    · simp [odd]
    · have even : ¬(x % 2 = 1 ∨ x = 0) := by omega
      rw [if_neg even, ← ih (x / 2) (by omega), List.find?_map, testBit_comp_succ]
      simp only [odd, decide_false]
      cases (List.range n).find? (x / 2).testBit <;> rfl

theorem trailingZeros_eq (a : W64) :
    trailingZeros a = BitVec.ofNat 64 (((List.range 64).find? (fun i => a.getLsbD i)).getD 64) := by
  unfold trailingZeros
  split
  case isTrue h => rw [h]; rfl
  case isFalse h =>
    exact congrArg (BitVec.ofNat 64) (find_testBit_range 64 a.toNat (fun e => h (BitVec.eq_of_toNat_eq e))).symm

/-- The highest one bit of a nonzero word is the first that a search from the top meets. -/
theorem find_getLsbD_from_top (a : W64) (h : a.toNat ≠ 0) :
    (List.range 64).find? (fun i => a.getLsbD (63 - i)) = some (63 - a.toNat.log2) := by
  have small : a.toNat.log2 < 64 := (Nat.log2_lt h).2 a.isLt
  rw [List.find?_range_eq_some]
  refine ⟨?_, List.mem_range.2 (by omega), fun j hj => ?_⟩
  · rw [show 63 - (63 - a.toNat.log2) = a.toNat.log2 by omega]
    exact Nat.testBit_log2 h
  · have above : a.toNat < 2 ^ (63 - j) := (Nat.log2_lt h).1 (by omega)
    rw [BitVec.getLsbD, Nat.testBit_lt_two_pow above, Bool.not_false]

theorem leadingZeros_eq (a : W64) :
    leadingZeros a = BitVec.ofNat 64 (((List.range 64).find? (fun i => a.getLsbD (63 - i))).getD 64) := by
  unfold leadingZeros
  split
  case isTrue h => rw [h]; rfl
  case isFalse h => rw [find_getLsbD_from_top a (fun e => h (BitVec.eq_of_toNat_eq e)), Option.getD_some]

/-- `popCount` counts the one bits. -/
theorem popCount_eq (n x : Nat) : popCount n x = ((List.range n).filter x.testBit).length := by
  induction n generalizing x with
  | zero => rfl
  | succ n ih =>
    rw [List.range_succ_eq_map, List.filter_cons, List.filter_map, testBit_comp_succ, popCount, ih, Nat.testBit_zero]
    rcases Nat.mod_two_eq_zero_or_one x with e | e <;> simp [e, Nat.add_comm]

/-- Doubling every term doubles a sum. -/
theorem sum_map_double (l : List Nat) (g : Nat → Nat) : (l.map (fun i => 2 * g i)).sum = 2 * (l.map g).sum := by
  induction l with
  | nil => rfl
  | cons i l ih => rw [List.map_cons, List.map_cons, List.sum_cons, List.sum_cons, ih, Nat.mul_add]

/-- A reversed word is the sum of its one bits, each at its mirrored weight. -/
theorem toNat_reverse {w : Nat} (a : BitVec w) :
    a.reverse.toNat = (((List.range w).filter (fun i => a.getLsbD i)).map (fun i => 2 ^ (w - 1 - i))).sum := by
  induction w with
  | zero => rw [BitVec.of_length_zero (x := a.reverse)]; rfl
  | succ w ih =>
    have low : (List.range w).filter (fun i => (a.setWidth w).getLsbD i) =
        (List.range w).filter (fun i => a.getLsbD i) :=
      List.filter_congr (fun i hi => by simp [List.mem_range.1 hi])
    have double : ((List.range w).filter (fun i => a.getLsbD i)).map (fun i => 2 ^ (w + 1 - 1 - i)) =
        ((List.range w).filter (fun i => a.getLsbD i)).map (fun i => 2 * 2 ^ (w - 1 - i)) :=
      List.map_congr_left (fun i hi => by
        have : i < w := List.mem_range.1 (List.mem_filter.1 hi).1
        rw [← Nat.pow_succ', show w + 1 - 1 - i = (w - 1 - i).succ by omega])
    rw [BitVec.reverse, BitVec.toNat_concat, ih, low, List.range_succ, List.filter_append, List.map_append,
      List.sum_append, double, sum_map_double, BitVec.msb_eq_getLsbD_last, Nat.mul_comm]
    cases h : a[w] <;> simp [h]

theorem reverse_eq_ofNat_sum (a : W64) :
    a.reverse = BitVec.ofNat 64 (((List.range 64).filter (fun i => a.getLsbD i)).map (fun i => 2 ^ (63 - i))).sum := by
  calc a.reverse
      = BitVec.ofNat 64 a.reverse.toNat := by rw [BitVec.ofNat_toNat, BitVec.setWidth_eq]
    _ = _ := congrArg (BitVec.ofNat 64) (toNat_reverse a)

/-! ### Instructions that write X[d] -/

/-- An integer operation of X[a] and the second operand meets its row (R98). -/
theorem XRow.holds_of_scalarOp {r : XRow} {op : W64 → W64 → W64}
    (hi : ∀ f s, exec (r.instr f) s = scalarOp op r.opc f s)
    (hv : ∀ f s, r.value f s = op (getX s f.a) (operandY f s))
    (hn : r.next = fun _ s => s.t.arch.pc + 4 := by rfl) (hd : r.dest = fun f => f.d := by rfl)
    (hc : r.counts = fun _ _ => false := by rfl) : r.Holds :=
  XRow.holds_of_writeX hn hd hc fun f s able _ => by rw [hi, scalarOp, runForm_able able, hv]

/-- An operation of X[a] alone meets its row (R100). -/
theorem XRow.holds_of_scalarUnary {r : XRow} {op : W64 → W64}
    (hi : ∀ f s, exec (r.instr f) s = scalarUnary op r.opc f s) (hv : ∀ f s, r.value f s = op (getX s f.a))
    (hn : r.next = fun _ s => s.t.arch.pc + 4 := by rfl) (hd : r.dest = fun f => f.d := by rfl)
    (hc : r.counts = fun _ _ => false := by rfl) : r.Holds :=
  XRow.holds_of_writeX hn hd hc fun f s able _ => by rw [hi, scalarUnary, runForm_able able, hv]

/-- Each integer row is met: most state the model's operation itself, the others one that the equations above identify
with it. -/
theorem integerRows_hold : IntegerInstructionsWriteOneRegister := by
  simp only [IntegerInstructionsWriteOneRegister, integerRows, List.forall_mem_cons]
  refine ⟨?add, ?addi, ?sub, ?and, ?andi, ?or, ?ori, ?xor, ?xori, ?shl, ?shli, ?shr, ?shri, ?sra, ?srai, ?mul, ?muli,
    ?mulh, ?mulhu, ?div, ?divu, ?rem, ?remu, ?slt, ?slti, ?sltu, ?sltiu, ?min, ?max, ?minu, ?maxu, List.forall_mem_nil _⟩
  case mulh => exact XRow.holds_of_scalarOp (fun _ _ => rfl) fun _ _ => by rw [mulHigh_eq]
  case mulhu => exact XRow.holds_of_scalarOp (fun _ _ => rfl) fun _ _ => by rw [mulHighU_eq]
  case div => exact XRow.holds_of_scalarOp (fun _ _ => rfl) fun _ _ => by rw [divSigned_eq]
  case divu => exact XRow.holds_of_scalarOp (fun _ _ => rfl) fun _ _ => by rw [divUnsigned_eq]
  case rem => exact XRow.holds_of_scalarOp (fun _ _ => rfl) fun _ _ => by rw [remSigned_eq]
  case remu => exact XRow.holds_of_scalarOp (fun _ _ => rfl) fun _ _ => by rw [remUnsigned_eq]
  case min => exact XRow.holds_of_scalarOp (fun f _ => exec_min f) fun _ _ => by simp only [BitVec.slt_iff_toInt_lt]
  case max => exact XRow.holds_of_scalarOp (fun f _ => exec_max f) fun _ _ => by simp only [BitVec.slt_iff_toInt_lt]
  case minu => exact XRow.holds_of_scalarOp (fun f _ => exec_minu f) fun _ _ => by simp only [BitVec.ult_iff_toNat_lt]
  case maxu => exact XRow.holds_of_scalarOp (fun f _ => exec_maxu f) fun _ _ => by simp only [BitVec.ult_iff_toNat_lt]
  all_goals exact XRow.holds_of_scalarOp (fun _ _ => rfl) fun _ _ => rfl

theorem bitRows_hold : BitInstructionsWriteOneRegister := by
  simp only [BitInstructionsWriteOneRegister, bitRows, List.forall_mem_cons]
  refine ⟨?clz, ?ctz, ?popc, ?brev, ?sel, List.forall_mem_nil _⟩
  case clz => exact XRow.holds_of_scalarUnary (fun _ _ => rfl) fun _ _ => by rw [leadingZeros_eq]
  case ctz => exact XRow.holds_of_scalarUnary (fun _ _ => rfl) fun _ _ => by rw [trailingZeros_eq]
  case popc => exact XRow.holds_of_scalarUnary (fun f _ => exec_popc f) fun _ _ => by rw [popCount_eq]; rfl
  case brev => exact XRow.holds_of_scalarUnary (fun _ _ => rfl) fun _ _ => by rw [reverse_eq_ofNat_sum]
  case sel =>
    exact XRow.holds_of_writeX rfl rfl rfl fun f s able _ => by rw [exec_sel, execSel, runForm_able able, ite_not]

/-! ### Words and long forms of three scalar registers -/

/-- The fields of an N-R word (R21): major format and op6 in nine bits, three register fields, and bits [1:0]. -/
theorem wordField_nR (h : BitVec 9) (d a b : Field) (t : BitVec 2) :
    let w : W32 := h ++ d ++ a ++ b ++ t
    wordField w 23 9 = h ∧ wordField w 29 3 = h.extractLsb' 6 3 ∧ wordField w 23 6 = h.extractLsb' 0 6 ∧
      wordField w 16 7 = d ∧ wordField w 9 7 = a ∧ wordField w 2 7 = b ∧ wordField w 0 2 = t := by
  simp (disch := decide) only [wordField, BitVec.extractLsb'_append_eq_of_le, BitVec.extractLsb'_append_eq_of_add_le,
    BitVec.extractLsb'_eq_self]
  simp

/-- A long form of three registers holds the defaults in every other field (R23). -/
theorem longForm_registers (o : BitVec 8) (d a b : Field) :
    longForm (o ++ d ++ a ++ b ++ (0 : BitVec 35)) = { d := d, a := a, b := b } := by
  have bit (i : Nat) (h : i < 35) : (o ++ d ++ a ++ b ++ (0 : BitVec 35)).getLsbD i = false := by
    rw [BitVec.getLsbD_append, if_pos h]; exact BitVec.getLsbD_zero
  simp (disch := decide) only [longForm, BitVec.extractLsb'_append_eq_of_le, BitVec.extractLsb'_append_eq_of_add_le, bit]
  simp

/-- The opcode of a long form stands in its upper byte (R23). -/
theorem longOpc_registers (o : BitVec 8) (d a b : Field) :
    longOpc (o ++ d ++ a ++ b ++ (0 : BitVec 35)) = o.toNat := by
  simp (disch := decide) only [longOpc, BitVec.extractLsb'_append_eq_of_le]
  simp

/-- A long form of three registers stands for its opcode with these registers. -/
theorem decodeLong_registers (o : BitVec 8) (d a b : Field) :
    decodeLong (o ++ d ++ a ++ b ++ (0 : BitVec 35)) = instrOfLong (o.toNat, { d := d, a := a, b := b }) := by
  have expanded : (o ++ d ++ a ++ b ++ (0 : BitVec 35)).extractLsb' 0 5 = 0 := by
    rw [BitVec.extractLsb'_append_eq_of_add_le (by decide)]; exact BitVec.extractLsb'_zero
  rw [decodeLong, if_pos expanded, longOpc_registers, longForm_registers]

/-- A word of op6 below 0x1B with type 00 stands for the long form of its three registers (R29). -/
theorem decodeWord_registers (h : BitVec 9) (d a b : Field) (pos : 0 < h.toNat) (hu : h.toNat < 0x1B) :
    decodeWord (h ++ d ++ a ++ b ++ (0 : BitVec 2)) = instrOfLong (h.toNat, { d := d, a := a, b := b }) := by
  obtain ⟨hop, hmajor, hop6, hd, ha, hb, ht⟩ := wordField_nR h d a b 0
  have nonzero : h ≠ 0 := fun e => by rw [e] at pos; exact absurd pos (by decide)
  have major : h.extractLsb' 6 3 = 0 := BitVec.eq_of_toNat_eq (by
    rw [BitVec.extractLsb'_toNat, Nat.shiftRight_eq_div_pow, BitVec.ofNat_eq_ofNat, BitVec.toNat_zero]; omega)
  have op6 : (h.extractLsb' 0 6).toNat = h.toNat := by
    rw [BitVec.extractLsb'_toNat, Nat.shiftRight_zero]; omega
  have untyped : isTyped h.toNat = false := by
    rw [isTyped, decide_eq_false (by omega : ¬0x1B ≤ h.toNat), Bool.false_and]
  have defined : ¬h.toNat > 0x26 := by omega
  have long : longNRScalar (h ++ d ++ a ++ b ++ (0 : BitVec 2)) = some (h.toNat, { d := d, a := a, b := b }) := by
    simp only [longNRScalar, hop6, op6, hd, ha, hb, ht, untyped, if_neg defined]
    rfl
  rw [decodeWord, hmajor, major, if_neg (by decide), hop, if_neg nonzero, nativeLong, hmajor, major]
  exact congrArg (·.bind instrOfLong) long

/-- A form of three scalar registers is one that an opcode of three scalar registers admits (R24). -/
theorem validForm_registers {opc : Nat} {d a b : Field}
    (hr : opRow? opc = some (row opc .x .x .x .unused .zero .zero .none false false .both))
    (hd : d.toNat < 64) (ha : a.toNat < 64) (hb : b.toNat < 64) :
    validForm opc { d := d, a := a, b := b } = true := by
  have reg {n : Field} (hn : n.toNat < 64) : FieldKind.x.admits n = true := decide_eq_true (Nat.le_of_lt_succ hn)
  simp only [validForm, hr, row, fieldsOk, regFieldsOk, reduceCtorEq, beq_iff_eq, if_false, reg hd, reg ha, reg hb]
  rfl

/-- The instruction of an opcode of three scalar registers, by the row and the constructor of the opcode (R39). -/
theorem instrOfLong_registers {opc : Nat} {i : Form → Instr} {d a b : Field}
    (hr : opRow? opc = some (row opc .x .x .x .unused .zero .zero .none false false .both))
    (hi : ∀ f, instrOf opc f = some (i f)) (hd : d.toNat < 64) (ha : a.toNat < 64) (hb : b.toNat < 64) :
    instrOfLong (opc, { d := d, a := a, b := b }) = some (i { d := d, a := a, b := b }) := by
  rw [instrOfLong, if_pos (validForm_registers hr hd ha hb), hi]

/-- The opcodes of the divisions in the opcode map (R39): three scalar registers, and the division as the instruction. -/
theorem division_opcodes {r : (Form → Instr) × Nat}
    (hr : r ∈ [(Instr.div, 0x0C), (.divu, 0x0D), (.rem, 0x0E), (.remu, 0x0F)]) :
    (0x0C ≤ r.2 ∧ r.2 ≤ 0x0F) ∧ opRow? r.2 = some (row r.2 .x .x .x .unused .zero .zero .none false false .both) ∧
      ∀ f, instrOf r.2 f = some (r.1 f) := by
  simp only [List.mem_cons, List.not_mem_nil, or_false] at hr
  rcases hr with rfl | rfl | rfl | rfl <;> exact ⟨by decide, rfl, fun _ => rfl⟩

theorem divisionWords_decode : DivisionWordsDecode := by
  intro r hr d a b hd ha hb
  obtain ⟨⟨lower, upper⟩, hrow, hinstr⟩ := division_opcodes hr
  have word : (BitVec.ofNat 9 r.2).toNat = r.2 := by rw [BitVec.toNat_ofNat]; omega
  have long : (BitVec.ofNat 8 r.2).toNat = r.2 := by rw [BitVec.toNat_ofNat]; omega
  have instr := instrOfLong_registers hrow hinstr hd ha hb
  constructor
  · rw [decodeWord_registers _ d a b (by omega) (by omega), word, instr]
  · rw [decodeLong_registers, long, instr]

/-- Settles O1: each row is one operation that writes X[d], and the model's operation is the one that the row states. -/
theorem integerInstructionsWriteOneRegister : Obligations.IntegerInstructionsWriteOneRegister :=
  ⟨integerRows_hold, bitRows_hold, divisionWords_decode⟩

end Sys2Proof.Machine

/-! PROOFS. The format register and the stream registers (R211, R223, R225). -/

namespace Sys2Proof.Machine

open Sys2Proof

/-! ### Faults that bring back the checkpoint -/

/-- An instruction takes a trap of kind R with this cause and telem 0: the checkpoint's registers are back but for the entry's
PC and divergence, no stream has elements read ahead, and nothing outside the thread has changed (R8, R85, R227). -/
def TakesRollback (i : Instr) (s : State) (code : W64) : Prop :=
  ∃ t, exec i s = .next t ∧ t.t.tcause = code ∧ t.t.telem = 0 ∧
    t.t.arch = { s.t.ckpt with
      pc := t.t.arch.pc, vp := t.t.arch.vp, sm := s.t.ckpt.sm.map (fun m => { m with ahead := [] }) } ∧
    t = { s with t := t.t }

theorem takesRollback_of_faultR {i : Instr} {s : State} {code : Nat} {tval : W64}
    (h : exec i s = finish (faultR code tval s)) : TakesRollback i s (BitVec.ofNat 64 code) := by
  obtain ⟨t, ht, trapped, harch, -, -, frame⟩ := finish_faultR s (.of code tval 0)
  obtain ⟨-, -, -, -, hcause, -, htelem, -⟩ := trapped
  exact ⟨t, h.trans ht, by rw [hcause, Cause.of, Nat.zero_mul, Nat.add_zero], htelem, by rw [harch]; rfl, frame⟩

/-- Outside a VP block an opcode that the thread's kind does not execute is an Illegal instruction with telem 0 (R41, R43). -/
theorem takesRollback_of_not_kindOk {opc : Nat} {f : Form} {i : Instr} {s : State} {r : OpRow}
    (form : ∃ b, exec i s = runForm opc f s b) (hr : opRow? opc = some r) (hs : running s = true)
    (kind : kindOk s r = false) (hvp : s.t.arch.vp = none) : TakesRollback i s 0x01 := by
  obtain ⟨b, hb⟩ := form
  have check : checkForm opc f s = some (illegal s) := by simp only [checkForm, hr, kind, Bool.not_false, if_true]
  have outside : illegalElem s = 0 := by simp only [illegalElem, hvp]
  refine takesRollback_of_faultR (code := 0x01) (tval := s.t.iword) ?_
  rw [hb, runForm_checked hs check, illegal, outside, faultR]

/-! ### Writes of the registers that end at the next word -/

/-- An instruction that replaces the registers and moves on to the next word. -/
theorem onlyArch_nextPc (s : State) (a : Arch) : OnlyArch s (complete (nextPc (withArch s a))) := by
  rw [nextPc_eq, withArch_withArch]
  exact onlyArch_withArch s _

/-- The registers that such an instruction leaves, where it keeps the PC and the divergence. -/
theorem arch_complete_nextPc {s s1 : State} (hpc : s1.t.arch.pc = s.t.arch.pc) (hvp : s1.t.arch.vp = s.t.arch.vp) :
    (complete (nextPc s1)).t.arch = { s1.t.arch with pc := s.t.arch.pc + 4, vp := nextVp s } := by
  rw [complete_t, stepped_arch, nextPc_arch, hpc, nextVp, nextVp, hpc, movedVp_congr hvp]

/-- An instruction that writes X[d] beside other registers, and moves on to the next word. -/
theorem writeX_withArch_holds {i : Instr} {f : Form} {s : State} {a : Arch} {v : W64}
    (h : exec i s = finish (writeX f v (withArch s a)))
    (hpc : a.pc = s.t.arch.pc) (hvp : a.vp = s.t.arch.vp) (hx : a.x = s.t.arch.x) :
    ∃ t, exec i s = .next t ∧ OnlyArch s t ∧
      t.t.arch = { a with pc := s.t.arch.pc + 4, vp := nextVp s, x := t.t.arch.x } ∧ WroteX s t f.d v := by
  have harch : (complete (nextPc (setX (withArch s a) f.d v))).t.arch =
      { (setX (withArch s a) f.d v).t.arch with pc := s.t.arch.pc + 4, vp := nextVp s } :=
    arch_complete_nextPc (by rw [setX_arch]; exact hpc) (by rw [setX_arch]; exact hvp)
  refine ⟨_, h.trans (finish_done _), ?_, ?_, fun n => ?_⟩
  · rw [setX_eq, withArch_withArch]; exact onlyArch_nextPc s _
  · rw [harch, setX_arch, withArch_t_arch]
  · rw [getX_complete, getX_nextPc, getX_setX, getX_withArch s a hx]

/-- `setStream` touches the registers alone. -/
theorem setStream_eq (s : State) (r : Field) (m : Stream) : setStream s r m = withArch s (setStream s r m).t.arch := by
  unfold setStream; split <;> rfl

/-- `setStream` touches the stream registers alone. -/
theorem setStream_arch (s : State) (r : Field) (m : Stream) :
    (setStream s r m).t.arch = { s.t.arch with sm := (setStream s r m).t.arch.sm } := by
  unfold setStream; split <;> rfl

/-- The stream registers are read from the checkpointed ones. -/
theorem getStream_congr {s s' : State} (h : s'.t.arch.sm = s.t.arch.sm) (n : Field) : getStream s' n = getStream s n := by
  simp only [getStream, h]

/-- An instruction that replaces one stream register and moves on to the next word. -/
theorem setStream_holds {i : Instr} {s : State} {d : Field} {m : Stream}
    (h : exec i s = finish (.done (nextPc (setStream s d m)))) :
    ∃ t, exec i s = .next t ∧ OnlyArch s t ∧
      t.t.arch = { s.t.arch with pc := s.t.arch.pc + 4, vp := nextVp s, sm := t.t.arch.sm } ∧
      ∀ n : Field, getStream t n = if n = d ∧ n.toNat < 8 then m else getStream s n := by
  have harch : (complete (nextPc (setStream s d m))).t.arch =
      { (setStream s d m).t.arch with pc := s.t.arch.pc + 4, vp := nextVp s } :=
    arch_complete_nextPc (by rw [setStream_arch]) (by rw [setStream_arch])
  refine ⟨_, h.trans (finish_done _), ?_, ?_, fun n => ?_⟩
  · rw [setStream_eq]; exact onlyArch_nextPc s _
  · rw [harch, setStream_arch]
  · rw [getStream_congr (s := setStream s d m) (by rw [harch]), getStream_setStream]

/-! ### What the three instructions answer -/

theorem exec_mfrset_refused {f : Form} {s : State} (able : Able 0xC6 f s) (h : mfrOk (getX s f.a) = false) :
    exec (.mfrset f) s = finish (faultR 0x10 0 s) := by
  rw [exec_mfrset, execMfrset, runForm_able able]
  simp only [h]; rfl

theorem exec_mfrset_taken {f : Form} {s : State} (able : Able 0xC6 f s) (h : mfrOk (getX s f.a) = true) :
    exec (.mfrset f) s =
      finish (writeX f s.t.arch.mfr (withArch s { s.t.arch with mfr := getX s f.a })) := by
  rw [exec_mfrset, execMfrset, runForm_able able]
  simp only [h]; rfl

theorem exec_sbind_refused {f : Form} {s : State} (able : Able 0xC7 f s)
    (h : streamFmtOk (bitsAt (getX s f.b).toNat 27 5) = false) : exec (.sbind f) s = finish (faultR 0x10 0 s) := by
  rw [exec_sbind, execSbind, runForm_able able]
  simp only [h]; rfl

/-- `sbind` of a stream's type checks the base, then the stride (R225). -/
theorem exec_sbind_typed {f : Form} {s : State} {ty : ElemTy} (able : Able 0xC7 f s)
    (h : streamFmtOk (bitsAt (getX s f.b).toNat 27 5) = true)
    (hty : ElemTy.ofCode (bitsAt (getX s f.b).toNat 27 5) = some ty) :
    exec (.sbind f) s = finish (
      if (getX s f.a).toNat % (ty.width / 8) ≠ 0 then faultR 0x06 (getX s f.a) s
      else if signedOf 32 (bitsAt (getX s f.b).toNat 32 32) % ((ty.width / 8 : Nat) : Int) ≠ 0 then
        faultR 0x06 (getX s f.a + BitVec.ofInt 64 (signedOf 32 (bitsAt (getX s f.b).toNat 32 32))) s
      else .done (nextPc (setStream s f.d { base := getX s f.a, word := getX s f.b, cons := 0, ahead := [] }))) := by
  rw [exec_sbind, execSbind, runForm_able able]
  simp only [h, hty]; rfl

theorem exec_sfree_able {f : Form} {s : State} (able : Able 0xC8 f s) :
    exec (.sfree f) s = finish (.done (nextPc (setStream s f.d .unbound))) := by
  rw [exec_sfree, execSfree, runForm_able able]

theorem sbind_misaligned_takesRollback {f : Form} {s : State} {ty : ElemTy} (able : Able 0xC7 f s)
    (h : streamFmtOk (bitsAt (getX s f.b).toNat 27 5) = true)
    (hty : ElemTy.ofCode (bitsAt (getX s f.b).toNat 27 5) = some ty)
    (bad : (getX s f.a).toNat % (ty.width / 8) ≠ 0 ∨
      signedOf 32 (bitsAt (getX s f.b).toNat 32 32) % ((ty.width / 8 : Nat) : Int) ≠ 0) :
    TakesRollback (.sbind f) s 0x06 := by
  have answer := exec_sbind_typed able h hty
  by_cases base : (getX s f.a).toNat % (ty.width / 8) = 0
  · have stride := bad.resolve_left (not_not_intro base)
    rw [if_neg (not_not_intro base), if_pos stride] at answer
    exact takesRollback_of_faultR answer
  · rw [if_pos base] at answer
    exact takesRollback_of_faultR answer

/-- With base and stride aligned, `sbind` ends in one write of its stream register. -/
theorem exec_sbind_aligned {f : Form} {s : State} {ty : ElemTy} (able : Able 0xC7 f s)
    (h : streamFmtOk (bitsAt (getX s f.b).toNat 27 5) = true)
    (hty : ElemTy.ofCode (bitsAt (getX s f.b).toNat 27 5) = some ty)
    (base : (getX s f.a).toNat % (ty.width / 8) = 0)
    (stride : signedOf 32 (bitsAt (getX s f.b).toNat 32 32) % ((ty.width / 8 : Nat) : Int) = 0) :
    exec (.sbind f) s = finish (.done (nextPc
      (setStream s f.d { base := getX s f.a, word := getX s f.b, cons := 0, ahead := [] }))) := by
  rw [exec_sbind_typed able h hty, if_neg (not_not_intro base), if_neg (not_not_intro stride)]

/-! ### Where the three are legal, and their words -/

/-- The instructions of this family in the opcode map (R39, R41): each has a row of vector threads only. -/
theorem formatAndStream_opcodes {i : Form → Instr} (hi : i ∈ [Instr.mfrset, .sbind, .sfree]) :
    ∃ opc r, opRow? opc = some r ∧ r.kind = .vec ∧ ∀ f s, ∃ b, exec (i f) s = runForm opc f s b := by
  simp only [List.mem_cons, List.not_mem_nil, or_false] at hi
  rcases hi with rfl | rfl | rfl
  · exact ⟨0xC6, _, rfl, rfl, form_mfrset⟩
  · exact ⟨0xC7, _, rfl, rfl, form_sbind⟩
  · exact ⟨0xC8, _, rfl, rfl, form_sfree⟩

theorem formatAndStream_illegal_on_mcc {i : Form → Instr} (hi : i ∈ [Instr.mfrset, .sbind, .sfree]) (f : Form) (s : State)
    (hs : running s = true) (slot : s.t.slot = 8) (hvp : s.t.arch.vp = none) : TakesRollback (i f) s 0x01 := by
  obtain ⟨opc, r, hr, vec, form⟩ := formatAndStream_opcodes hi
  exact takesRollback_of_not_kindOk (form f s) hr hs (by simp only [kindOk, vec, slot]; rfl) hvp

theorem streamFmtOk_iff_mem (n : Nat) :
    streamFmtOk n = true ↔ n ∈ [1, 2, 3, 4, 5, 6, 11, 12, 13, 14, 16, 17, 18, 19] :=
  List.contains_iff_mem

/-- The fields of an N-S word (R21): major format, op2 and op6 in eleven bits, and three register fields. -/
theorem wordField_nS (h : BitVec 11) (d a b : Field) :
    let w : W32 := h ++ d ++ a ++ b
    wordField w 23 9 = h.extractLsb' 2 9 ∧ wordField w 29 3 = h.extractLsb' 8 3 ∧ wordField w 27 2 = h.extractLsb' 6 2 ∧
      wordField w 21 6 = h.extractLsb' 0 6 ∧ wordField w 14 7 = d ∧ wordField w 7 7 = a ∧ wordField w 0 7 = b := by
  simp (disch := decide) only [wordField, BitVec.extractLsb'_append_eq_of_le, BitVec.extractLsb'_append_eq_of_add_le,
    BitVec.extractLsb'_eq_self]
  simp

/-- A word of major 110, op2 3 and an op6 that is neither reserved nor a control register access stands for the long form
of its three registers (R29, R40). -/
theorem decodeWord_nS {h : BitVec 11} {op6 : Nat} (notUdf : h.extractLsb' 2 9 ≠ 0)
    (major : h.extractLsb' 8 3 = 6) (op2 : h.extractLsb' 6 2 = 3) (hop6 : (h.extractLsb' 0 6).toNat = op6)
    (defined : nSReserved op6 = false) (notSys : isSysOp6 op6 = false)
    (d a b : Field) :
    decodeWord (h ++ d ++ a ++ b) = instrOfLong (0xC0 + op6, { d := d, a := a, b := b }) := by
  obtain ⟨hudf, hmajor, hop2, hop, hd, ha, hb⟩ := wordField_nS h d a b
  have long : longNU (h ++ d ++ a ++ b) = some (0xC0 + op6, { d := d, a := a, b := b }) := by
    simp only [longNU, hop2, op2, hop, hop6, hd, ha, hb, defined, notSys]
    rfl
  rw [decodeWord, hmajor, major, if_neg (by decide), hudf, if_neg notUdf, nativeLong, hmajor, major]
  exact congrArg (·.bind instrOfLong) long

/-- The instruction of a long form whose only fields are registers that its opcode's row admits (R24, R39). -/
theorem instrOfLong_admitted {opc : Nat} {kd ka kb : FieldKind} {k : ThreadKind} {i : Form → Instr} {d a b : Field}
    (hr : opRow? opc = some (row opc kd ka kb .unused .zero .zero .none false false k))
    (hi : ∀ f, instrOf opc f = some (i f)) (hkb : (kb == .mem) = false)
    (hd : kd.admits d = true) (ha : ka.admits a = true) (hb : kb.admits b = true) :
    instrOfLong (opc, { d := d, a := a, b := b }) = some (i { d := d, a := a, b := b }) := by
  have fields : regFieldsOk (row opc kd ka kb .unused .zero .zero .none false false k) { d := d, a := a, b := b } = true := by
    simp only [regFieldsOk, row, hkb, hd, ha, Bool.false_eq_true, if_false, hb]; rfl
  have valid : validForm opc { d := d, a := a, b := b } = true := by
    simp only [validForm, hr]
    simp only [fieldsOk, row] at fields ⊢
    rw [fields]; rfl
  rw [instrOfLong, if_pos valid, hi]

theorem sbindWord_decodes {d a b : Field} (hd : d.toNat < 8) (ha : a.toNat < 64) (hb : b.toNat < 64) :
    decodeWord (BitVec.ofNat 11 0x6C7 ++ d ++ a ++ b) = some (.sbind { d := d, a := a, b := b }) := by
  rw [decodeWord_nS (op6 := 0x07) (by decide) rfl rfl rfl rfl rfl]
  exact instrOfLong_admitted (kd := .sm) (ka := .x) (kb := .x) rfl (fun _ => rfl) rfl (decide_eq_true (Nat.le_of_lt_succ hd))
    (decide_eq_true (Nat.le_of_lt_succ ha)) (decide_eq_true (Nat.le_of_lt_succ hb))

/-- Fourteen zero bits are two register fields of zero. -/
theorem append_zeros_split {n : Nat} (y : BitVec n) : y ++ (0 : BitVec 14) = y ++ (0 : Field) ++ (0 : Field) := by
  apply BitVec.eq_of_toNat_eq
  simp [BitVec.toNat_append, ← Nat.shiftLeft_add]

theorem sfreeWord_decodes {d : Field} (hd : d.toNat < 8) :
    decodeWord (BitVec.ofNat 11 0x6C8 ++ d ++ (0 : BitVec 14)) = some (.sfree { d := d }) := by
  have split : BitVec.ofNat 11 0x6C8 ++ d ++ (0 : BitVec 14) = BitVec.ofNat 11 0x6C8 ++ d ++ (0 : Field) ++ (0 : Field) :=
    append_zeros_split _
  rw [split, decodeWord_nS (op6 := 0x08) (by decide) rfl rfl rfl rfl rfl]
  exact instrOfLong_admitted (kd := .sm) (ka := .unused) (kb := .unused) rfl (fun _ => rfl) rfl
    (decide_eq_true (Nat.le_of_lt_succ hd)) rfl rfl

theorem formatAndStreamFaults : FormatAndStreamFaults :=
  ⟨fun _ _ able refused => takesRollback_of_faultR (exec_mfrset_refused able refused),
    fun _ _ able refused => takesRollback_of_faultR (exec_sbind_refused able refused),
    fun _ _ _ able fmt hty bad => sbind_misaligned_takesRollback able fmt hty bad,
    streamFmtOk_iff_mem,
    fun _ hi f s hs slot hvp => formatAndStream_illegal_on_mcc hi f s hs slot hvp,
    fun _ _ _ hd ha hb => ⟨sbindWord_decodes hd ha hb, sfreeWord_decodes hd⟩⟩

/-- Settles O16: each instruction either takes a trap that brings back the checkpoint, or ends in one write of registers. -/
theorem formatAndStreamRegistersAreSet : Obligations.FormatAndStreamRegistersAreSet :=
  ⟨formatAndStreamFaults,
    fun _ _ able ok => writeX_withArch_holds (exec_mfrset_taken able ok) rfl rfl rfl,
    fun _ _ _ able fmt hty base stride => setStream_holds (exec_sbind_aligned able fmt hty base stride),
    fun _ _ able => setStream_holds (exec_sfree_able able)⟩

end Sys2Proof.Machine
